-- ==== Sys2Proof/Word.lean ====
section
/-! DEFINITION. The widths of the values VBRC works on (00_scope.md R6, R8, R9). -/

namespace Sys2Proof

/-- A lane, an immediate: 8 bits (R6 "lane width"). -/
abbrev Byte := BitVec 8

/-- A command word, or STATUS as the host reads it: 32 bits (R6). -/
abbrev Word := BitVec 32

/-- The number of a vector register, 0 to 7 (30_encoding.md R73: "Every value is legal"). -/
abbrev VReg := Fin 8

/-- A vector value: "a sequence of N bytes" (R8), lane 0 first. -/
abbrev Vec := List Byte

/-- An N-bit lane mask (10_state.md R24): "Bit k of ZM belongs to lane k", bit 0 first. -/
abbrev LaneMask := List Bool

/-- `u8(b)`, the unsigned reading of a byte (R9). -/
abbrev Byte.u8 (b : Byte) : Nat := b.toNat

/-- `s8(b)`, the two's-complement reading of a byte (R9). -/
abbrev Byte.s8 (b : Byte) : Int := b.toInt

end Sys2Proof
end

