-- ==== Sys2Proof/Config.lean ====
section
/-! DEFINITION. The implementation parameters of VBRC (00_scope.md R5, R6). The lane count is a parameter that
State carries (log 1); the latency LAT is open and is a free choice of each clock edge (log 5). -/

namespace Sys2Proof

/-- The values the parameter `N` may take: "N ∈ {16, 32, 64}" (R5). No other lane count exists (U3: "other values
refuse"). -/
inductive LaneCount where
  | n16
  | n32
  | n64
deriving DecidableEq, Repr

namespace LaneCount

/-- The number of lanes. -/
def count : LaneCount → Nat
  | n16 => 16
  | n32 => 32
  | n64 => 64

end LaneCount

namespace Config

/-- "The default and reference value is N = 16" (R5). -/
def defaultLanes : LaneCount := .n16

/-- The number of vector registers (R6, `NVREG`). -/
def nvreg : Nat := 8

end Config

end Sys2Proof
end

