-- ==== Sys2Proof/Syntax.lean ====
section
/-! DEFINITION. The commands of VBRC as terms: the 22 opcodes, the 8 formats and the raw fields of a command word
(30_encoding.md R71, R72, R76), the decoded commands `Instr` (one constructor per row of the opcode table), and the
terms of the assembly language (R81, R82). -/

namespace Sys2Proof

/-- The Range Classifier datapaths VAR names (30_encoding.md R75). VAR = 3 is reserved and is no term. -/
inductive Variant where
  | mask
  | blend
  | perm
deriving DecidableEq, Repr

/-- The 22 assigned opcodes (R76), in the table's order. -/
inductive Opcode where
  | nop | vin | vout | vbcast
  | vcmpeq | vcmpge | vcmple | vcmpgt
  | vand | vor | vadd | vsub | vblend
  | vldpt | vshuf
  | vzmask | vffs | vchk | clrst
  | vcls | vclsh | vdec
deriving DecidableEq, Repr

/-- The 8 command formats (R72). -/
inductive Format where
  | f0 | fd | fs | fi | fri | frr | frrr | fv
deriving DecidableEq, Repr

/-- The fields of a command word, "at fixed positions in every format" (R71). -/
structure Fields where
  op : BitVec 6
  vd : BitVec 3
  va : BitVec 3
  vb : BitVec 3
  vm : BitVec 3
  rsv : BitVec 4
  var : BitVec 2
  imm8 : Byte
deriving DecidableEq, Repr

/-- A legal command, with its operands in the order of the assembly syntax (R81). -/
inductive Instr where
  /-- R205 -/
  | nop
  /-- R206 -/
  | vin (vd : VReg)
  /-- R207 -/
  | vout (va : VReg)
  /-- R141 -/
  | vbcast (vd : VReg) (imm : Byte)
  /-- R142 -/
  | vcmpeq (vd va : VReg) (imm : Byte)
  /-- R143 -/
  | vcmpge (vd va : VReg) (imm : Byte)
  /-- R144 -/
  | vcmple (vd va : VReg) (imm : Byte)
  /-- R145 -/
  | vcmpgt (vd va : VReg) (imm : Byte)
  /-- R146 -/
  | vand (vd va vb : VReg)
  /-- R147 -/
  | vor (vd va vb : VReg)
  /-- R148 -/
  | vadd (vd va vb : VReg)
  /-- R149 -/
  | vsub (vd va vb : VReg)
  /-- R150: the selector `vm` comes second, as in the assembly. -/
  | vblend (vd vm va vb : VReg)
  /-- R170 -/
  | vldpt (vd : VReg)
  /-- R171: `vt` holds the table, `vi` the indices. -/
  | vshuf (vd vt vi : VReg)
  /-- R183 -/
  | vzmask (va : VReg)
  /-- R184 -/
  | vffs
  /-- R185 -/
  | vchk (va : VReg)
  /-- R186 -/
  | clrst
  /-- R112 -/
  | vcls (vd va : VReg) (var : Variant)
  /-- R113 -/
  | vclsh (vd va : VReg) (var : Variant)
  /-- R114 -/
  | vdec (vd va : VReg) (var : Variant)
deriving DecidableEq, Repr

/-- An operand as the assembly text writes it (R81), not yet checked: `V9` and `300` are terms too. -/
inductive Operand where
  | reg (n : Nat)
  | imm (x : Int)
  | var (v : Variant)
deriving DecidableEq, Repr

/-- The mnemonics of the assembly language: a command's, or a pseudo-instruction's (R82). -/
inductive Mnemonic where
  | cmd (op : Opcode)
  | vmov
  | vzero
  | vones
deriving DecidableEq, Repr

/-- One line of assembly (R81): "The mnemonic ..., then operands separated by commas". -/
structure AsmLine where
  mnemonic : Mnemonic
  operands : List Operand
deriving DecidableEq, Repr

end Sys2Proof
end

