-- ==== Sys2Proof/WellFormed.lean ====
section
/-! DEFINITION. Which terms are well formed. Every term of `Instr` is, by its types: a register is one of V0 to V7
(30_encoding.md R73), an immediate one byte (R74), a variant one of three (R75); so nothing about `Instr` is left to
check. A line of assembly can be ill formed, and here are its checks (R81). Which 32-bit words are legal is R77, in
Sys2Proof/Decode.lean. -/

namespace Sys2Proof

/-- The kinds of operand of R81's table. -/
inductive OperandKind where
  | reg
  | imm
  | var
deriving DecidableEq, Repr

namespace Operand

/-- The kind an operand was written as. -/
def kind : Operand → OperandKind
  | reg _ => .reg
  | imm _ => .imm
  | var _ => .var

/-- "Registers are written `V0` to `V7`"; an immediate is "from −128 to 255" (R81). -/
def inRange : Operand → Bool
  | reg n => n < 8
  | imm x => -128 ≤ x && x ≤ 255
  | var _ => true

end Operand

/-- R81's table of operand orders, by the kind of each operand. -/
def Opcode.operandKinds : Opcode → List OperandKind
  | .nop | .vffs | .clrst => []
  | .vin | .vldpt => [.reg]
  | .vout | .vzmask | .vchk => [.reg]
  | .vbcast => [.reg, .imm]
  | .vcmpeq | .vcmpge | .vcmple | .vcmpgt => [.reg, .reg, .imm]
  | .vand | .vor | .vadd | .vsub => [.reg, .reg, .reg]
  | .vshuf => [.reg, .reg, .reg]
  | .vblend => [.reg, .reg, .reg, .reg]
  | .vcls | .vclsh | .vdec => [.reg, .reg, .var]

/-- The operands of each mnemonic, the pseudo-instructions of R82 among them. -/
def Mnemonic.operandKinds : Mnemonic → List OperandKind
  | .cmd op => op.operandKinds
  | .vmov => [.reg, .reg]
  | .vzero | .vones => [.reg]

/-- A line is well formed when it has the operands of its mnemonic, in order, each in its range (R81). -/
def AsmLine.wf (a : AsmLine) : Bool :=
  a.operands.map Operand.kind == a.mnemonic.operandKinds && a.operands.all Operand.inRange

end Sys2Proof
end

