-- ==== Sys2Proof/Decode.lean ====
section
/-! DEFINITION. The encoding of commands (30_encoding.md): the opcode map (R76), the formats (R72), the decoder, which
is total on all 2^32 words and rejects by name (R77, R78), and the encoder. -/

namespace Sys2Proof

/-! ## The tables -/

/-- The OP column of R76. -/
def Opcode.number : Opcode → BitVec 6
  | .nop => 0x00
  | .vin => 0x01
  | .vout => 0x02
  | .vbcast => 0x03
  | .vcmpeq => 0x08
  | .vcmpge => 0x09
  | .vcmple => 0x0A
  | .vcmpgt => 0x0B
  | .vand => 0x10
  | .vor => 0x11
  | .vadd => 0x12
  | .vsub => 0x13
  | .vblend => 0x14
  | .vldpt => 0x18
  | .vshuf => 0x19
  | .vzmask => 0x20
  | .vffs => 0x21
  | .vchk => 0x22
  | .clrst => 0x23
  | .vcls => 0x28
  | .vclsh => 0x29
  | .vdec => 0x2A

/-- The format column of R76. -/
def Opcode.format : Opcode → Format
  | .nop | .vffs | .clrst => .f0
  | .vin | .vldpt => .fd
  | .vout | .vzmask | .vchk => .fs
  | .vbcast => .fi
  | .vcmpeq | .vcmpge | .vcmple | .vcmpgt => .fri
  | .vand | .vor | .vadd | .vsub | .vshuf => .frr
  | .vblend => .frrr
  | .vcls | .vclsh | .vdec => .fv

/-- Every assigned opcode, in the order of R76. -/
def Opcode.all : List Opcode :=
  [.nop, .vin, .vout, .vbcast, .vcmpeq, .vcmpge, .vcmple, .vcmpgt, .vand, .vor, .vadd, .vsub, .vblend,
   .vldpt, .vshuf, .vzmask, .vffs, .vchk, .clrst, .vcls, .vclsh, .vdec]

/-- The opcode of an OP field, `none` for the 42 unassigned values (R76). -/
def Opcode.ofNumber (n : BitVec 6) : Option Opcode :=
  Opcode.all.find? fun o => o.number == n

/-- The mask column of R72: "a 1 marks a bit whose value is fixed for the format". -/
def Format.mask : Format → Word
  | .f0 => 0xFFFFFFFF
  | .fd => 0xFC7FFFFF
  | .fs => 0xFF8FFFFF
  | .fi => 0xFC7FFF00
  | .fri => 0xFC0FFF00
  | .frr => 0xFC01FFFF
  | .frrr => 0xFC003FFF
  | .fv => 0xFC0FFCFF

/-- The fields, beside OP, that a format uses (R72, column "fields used"). RSV is used by no format. -/
structure FieldUse where
  vd : Bool := false
  va : Bool := false
  vb : Bool := false
  vm : Bool := false
  var : Bool := false
  imm8 : Bool := false
deriving DecidableEq, Repr

/-- The "fields used" column of R72. -/
def Format.uses : Format → FieldUse
  | .f0 => {}
  | .fd => { vd := true }
  | .fs => { va := true }
  | .fi => { vd := true, imm8 := true }
  | .fri => { vd := true, va := true, imm8 := true }
  | .frr => { vd := true, va := true, vb := true }
  | .frrr => { vd := true, va := true, vb := true, vm := true }
  | .fv => { vd := true, va := true, var := true }

/-! ## Fields of a word -/

/-- The fields of a command word (R71). -/
def Fields.ofWord (w : Word) : Fields where
  op := w.extractLsb' 26 6
  vd := w.extractLsb' 23 3
  va := w.extractLsb' 20 3
  vb := w.extractLsb' 17 3
  vm := w.extractLsb' 14 3
  rsv := w.extractLsb' 10 4
  var := w.extractLsb' 8 2
  imm8 := w.extractLsb' 0 8

/-- The word with these fields, most significant first (R71). -/
def Fields.toWord (f : Fields) : Word :=
  f.op ++ f.vd ++ f.va ++ f.vb ++ f.vm ++ f.rsv ++ f.var ++ f.imm8

/-- "every other field of the word must be zero" (R72); RSV "must be 0 in every format" (R71). -/
def Fields.unusedZero (f : Fields) (u : FieldUse) : Bool :=
  (u.vd || f.vd == 0) && (u.va || f.va == 0) && (u.vb || f.vb == 0) && (u.vm || f.vm == 0) &&
    f.rsv == 0 && (u.var || f.var == 0) && (u.imm8 || f.imm8 == 0)

/-- The register a 3-bit field selects: "an unsigned 3-bit number r" (R73). -/
def VReg.ofBits (b : BitVec 3) : VReg := b.toFin

/-- The 3-bit field of a register (R73). -/
def VReg.bits (r : VReg) : BitVec 3 := BitVec.ofFin r

/-- R75: the datapath VAR selects; 3 is reserved. -/
def Variant.ofBits (b : BitVec 2) : Option Variant :=
  if b = 0 then some .mask else if b = 1 then some .blend else if b = 2 then some .perm else none

/-- R75: the VAR field of a datapath. -/
def Variant.bits : Variant → BitVec 2
  | .mask => 0
  | .blend => 1
  | .perm => 2

/-! ## The decoder (R77) -/

/-- Why a word spells no command: the three tests of R77, in its order. The machine treats all alike (60_exceptions.md
R302). -/
inductive Illegal where
  | unassignedOpcode
  | nonzeroUnusedField
  | reservedVariant
deriving DecidableEq, Repr

/-- The command of an opcode and fields whose unused fields are zero. -/
def Opcode.build (o : Opcode) (f : Fields) : Except Illegal Instr :=
  let d := VReg.ofBits f.vd
  let a := VReg.ofBits f.va
  let b := VReg.ofBits f.vb
  let m := VReg.ofBits f.vm
  let withVariant (g : Variant → Instr) : Except Illegal Instr :=
    match Variant.ofBits f.var with
    | some v => .ok (g v)
    | none => .error .reservedVariant
  match o with
  | .nop => .ok .nop
  | .vin => .ok (.vin d)
  | .vout => .ok (.vout a)
  | .vbcast => .ok (.vbcast d f.imm8)
  | .vcmpeq => .ok (.vcmpeq d a f.imm8)
  | .vcmpge => .ok (.vcmpge d a f.imm8)
  | .vcmple => .ok (.vcmple d a f.imm8)
  | .vcmpgt => .ok (.vcmpgt d a f.imm8)
  | .vand => .ok (.vand d a b)
  | .vor => .ok (.vor d a b)
  | .vadd => .ok (.vadd d a b)
  | .vsub => .ok (.vsub d a b)
  | .vblend => .ok (.vblend d m a b)
  | .vldpt => .ok (.vldpt d)
  | .vshuf => .ok (.vshuf d a b)
  | .vzmask => .ok (.vzmask a)
  | .vffs => .ok .vffs
  | .vchk => .ok (.vchk a)
  | .clrst => .ok .clrst
  | .vcls => withVariant (.vcls d a)
  | .vclsh => withVariant (.vclsh d a)
  | .vdec => withVariant (.vdec d a)

/-- `decode` of R77, on the fields of a word. -/
def Fields.decode (f : Fields) : Except Illegal Instr :=
  match Opcode.ofNumber f.op with
  | none => .error .unassignedOpcode
  | some o => if f.unusedZero o.format.uses then o.build f else .error .nonzeroUnusedField

/-- `decode` of R77. "A model's decoder is total on all 2^32 words" (R78). -/
def decode (w : Word) : Except Illegal Instr := (Fields.ofWord w).decode

/-! ## The encoder -/

/-- The opcode of a command. -/
def Instr.opcode : Instr → Opcode
  | .nop => .nop
  | .vin _ => .vin
  | .vout _ => .vout
  | .vbcast _ _ => .vbcast
  | .vcmpeq _ _ _ => .vcmpeq
  | .vcmpge _ _ _ => .vcmpge
  | .vcmple _ _ _ => .vcmple
  | .vcmpgt _ _ _ => .vcmpgt
  | .vand _ _ _ => .vand
  | .vor _ _ _ => .vor
  | .vadd _ _ _ => .vadd
  | .vsub _ _ _ => .vsub
  | .vblend _ _ _ _ => .vblend
  | .vldpt _ => .vldpt
  | .vshuf _ _ _ => .vshuf
  | .vzmask _ => .vzmask
  | .vffs => .vffs
  | .vchk _ => .vchk
  | .clrst => .clrst
  | .vcls _ _ _ => .vcls
  | .vclsh _ _ _ => .vclsh
  | .vdec _ _ _ => .vdec

/-- All fields zero but OP: format F0. -/
def Fields.bare (o : Opcode) : Fields :=
  { op := o.number, vd := 0, va := 0, vb := 0, vm := 0, rsv := 0, var := 0, imm8 := 0 }

/-- The fields of a command (the patterns of R72). -/
def Instr.fields (i : Instr) : Fields :=
  let f := Fields.bare i.opcode
  match i with
  | .nop | .vffs | .clrst => f
  | .vin d | .vldpt d => { f with vd := VReg.bits d }
  | .vout a | .vzmask a | .vchk a => { f with va := VReg.bits a }
  | .vbcast d imm => { f with vd := VReg.bits d, imm8 := imm }
  | .vcmpeq d a imm | .vcmpge d a imm | .vcmple d a imm | .vcmpgt d a imm =>
    { f with vd := VReg.bits d, va := VReg.bits a, imm8 := imm }
  | .vand d a b | .vor d a b | .vadd d a b | .vsub d a b | .vshuf d a b =>
    { f with vd := VReg.bits d, va := VReg.bits a, vb := VReg.bits b }
  | .vblend d m a b =>
    { f with vd := VReg.bits d, va := VReg.bits a, vb := VReg.bits b, vm := VReg.bits m }
  | .vcls d a v | .vclsh d a v | .vdec d a v =>
    { f with vd := VReg.bits d, va := VReg.bits a, var := v.bits }

/-- The word of a command. -/
def encode (i : Instr) : Word := i.fields.toWord

/-! ## The host's question -/

/-- The command the decoder reads from a row's bits. A command is one 32-bit word and no byte order applies to it
(R70, 20_memory.md R53); bits above `nbits` are 0. A number that is no 32-bit word spells no command. -/
def decodeTableWord (nbits w : Nat) : Option Instr :=
  let v := w % 2 ^ nbits
  if v < 2 ^ 32 then (decode (BitVec.ofNat 32 v)).toOption else none

end Sys2Proof
end

