-- ==== Sys2Proof/Machine/Constants.lean ====
section
/-! DEFINITION. The read-only constants of VBRC (10_state.md R31 to R33): "the same in every instance" (R38), written
by no command and not changed by reset, so they are definitions and not fields of State (log 11). -/

namespace Sys2Proof

/-- The character classes (40_classifier.md R100). -/
inductive CharClass where
  | upper
  | lower
  | digit
  | plus
  | slash
  | invalid
deriving DecidableEq, Repr

/-- SHIFT_CONST (R31). -/
def shiftConst : CharClass → Byte
  | .upper => 0xBF
  | .lower => 0xB9
  | .digit => 0x04
  | .plus => 0x13
  | .slash => 0x10
  | .invalid => 0x00

/-- T, "the read-only ascending sequence of 9 thresholds" (R32). -/
def thresholds : List Byte := [42, 43, 46, 47, 57, 64, 90, 96, 122]

/-- PTAB, the 16 entries of R33. -/
def ptab : Vec :=
  [0x00, 0x13, 0x00, 0x10, 0x04, 0x00, 0xBF, 0x00, 0xB9, 0x00, 0x00, 0x00, 0x00, 0x00, 0x00, 0x00]

end Sys2Proof
end

