-- ==== Sys2Proof/Machine/Lanes.lean ====
section
/-! DEFINITION. Vector values and their lanes (00_scope.md R8, R10). -/

namespace Sys2Proof

/-- `lane(v, k)` (R8). A list too short for lane k has no lane k, and no state a run reaches holds one; the model then
reads 0x00 (log 10). -/
def Vec.lane (x : Vec) (k : Nat) : Byte := x.getD k 0

/-- The vector value of `n` lanes with lane k equal to `f k`: the spec's "for k in 0..N-1" (R10). -/
def Vec.tab (n : Nat) (f : Nat → Byte) : Vec := (List.range n).map f

/-- `bcast(b)`: "the vector value with every lane equal to byte x" (R10). -/
def Vec.bcast (n : Nat) (b : Byte) : Vec := Vec.tab n fun _ => b

/-- Lane by lane from one vector (41_lane_primitives.md R140 "Lanewise"). -/
def Vec.lanewise1 (n : Nat) (f : Byte → Byte) (x : Vec) : Vec :=
  Vec.tab n fun k => f (x.lane k)

/-- Lane by lane from two vectors (R140 "Lanewise"). -/
def Vec.lanewise2 (n : Nat) (f : Byte → Byte → Byte) (x y : Vec) : Vec :=
  Vec.tab n fun k => f (x.lane k) (y.lane k)

/-- Lane by lane from three vectors (R140 "Lanewise"). -/
def Vec.lanewise3 (n : Nat) (f : Byte → Byte → Byte → Byte) (x y z : Vec) : Vec :=
  Vec.tab n fun k => f (x.lane k) (y.lane k) (z.lane k)

/-! ## The 8N-bit image of a vector (00_scope.md R8, 20_memory.md R52) -/

/-- The vector value an 8N-bit image holds: "`lane(v, k)` is bits `[8k+7 : 8k]`" (R8). -/
def Vec.ofImage (n : Nat) (w : BitVec (8 * n)) : Vec := Vec.tab n fun k => w.extractLsb' (8 * k) 8

/-- The bytes as one number, "Lane 0 is the least significant byte" (R52). -/
def Vec.imageNat : Vec → Nat
  | [] => 0
  | b :: x => 2 ^ 8 * imageNat x + b.toNat

/-- The 8N-bit image of a vector value, on a bus or in a register (R8). -/
def Vec.image (n : Nat) (x : Vec) : BitVec (8 * n) := BitVec.ofNat (8 * n) x.imageNat

/-- `byte(x)`: "the byte whose unsigned value is `x mod 256`, for any integer x" (R9). -/
def byte (x : Int) : Byte := BitVec.ofInt 8 x

end Sys2Proof
end

