-- ==== Sys2Proof/Machine/State.lean ====
section
/-! DEFINITION. The state of one VBRC instance (10_state.md R20), the inputs of its ports (44_host_port.md R200), and
the state after reset (10_state.md R37). -/

namespace Sys2Proof.Machine

open Sys2Proof

/-- A register whose contents the spec does not give at reset: what it holds, and whether a command has written it
since the last reset (10_state.md R23, R24). -/
structure Slot (α : Type) where
  value : α
  written : Bool
deriving DecidableEq, Repr

/-- The fields of STATUS that a command can change (10_state.md R25). OFFSET and the reserved bits are hardwired 0
(R29, R30): `Status.word` of Machine/Ops.lean reads them so. -/
structure Status where
  /-- bit 0 (R26) -/
  fail : Bool
  /-- bit 1 (R27) -/
  ill : Bool
  /-- bits 13:8 (R28) -/
  lane : BitVec 6
deriving DecidableEq, Repr

/-- A response: "(STATUS after the command, DOUT)" (44_host_port.md R203). -/
structure Response where
  status : Word
  data : Vec
deriving DecidableEq, Repr

/-- A command as VBRC takes it: `cmd_word`, and the N lanes of the payload on `cmd_data` (44_host_port.md R201). -/
structure Command where
  word : Word
  data : Vec
deriving DecidableEq, Repr

/-- The inputs of VBRC at one rising edge of `clk` (44_host_port.md R200). `done` is no port: it is the model's free
choice of whether a command in flight completes at this edge (LAT is OPEN, 70_reset_and_hazards.md R407; log 5). -/
structure Edge where
  rst : Bool
  cmdValid : Bool
  cmdWord : Word
  /-- the number on the 8N wires of `cmd_data` (R200); N is the instance's and not the edge's (log 20) -/
  cmdData : Nat
  rspReady : Bool
  done : Bool
deriving DecidableEq, Repr

/-- The two events of 60_exceptions.md R300. -/
inductive Event where
  /-- InvalidCharacter with its `lane_index` (R301); its `batch_offset` is always 0 (10_state.md R29). -/
  | invalidCharacter (lane : Nat)
  /-- IllegalCommand (R302) -/
  | illegalCommand
deriving DecidableEq, Repr

/-- The state. `lanes` is the parameter N, which no step changes (00_scope.md R5; log 1). `pending` and `received` are
the host's side, and `position` numbers the commands (10_state.md R34; logs 4 and 8). -/
structure State where
  /-- N (00_scope.md R5) -/
  lanes : LaneCount
  /-- V0 to V7 (10_state.md R21) -/
  v : Vector (Slot Vec) 8
  /-- ZM (10_state.md R24) -/
  zm : Slot LaneMask
  /-- STATUS (10_state.md R25) -/
  status : Status
  /-- RSP (10_state.md R36); `none` is empty -/
  rsp : Option Response
  /-- the command accepted and not yet complete (44_host_port.md R202) -/
  inFlight : Option Command
  /-- the number of the next command to complete (10_state.md R34) -/
  position : Nat
  /-- the port inputs of the coming edges, the next first -/
  pending : List Edge
  /-- the responses the host has taken since reset, the first first (44_host_port.md R203) -/
  received : List Response
deriving DecidableEq, Repr

/-- The faults of the machine: none. "No other condition is an event" (60_exceptions.md R300), and both events let the
command complete (R306), so no step of VBRC stops with a fault (log 16). -/
inductive Fault
deriving DecidableEq, Repr

/-- The refusals of the machine. -/
inductive Refusal where
  /-- Raised by an arm of `exec` for an instruction that has no meaning yet; safe. No arm raises it. -/
  | notModelled (mnemonic : String)
deriving DecidableEq, Repr

/-- The state of an instance with the given lane count right after reset (10_state.md R37). The contents of V0 to V7
and ZM are unspecified there (R23, R24): the model names zero, and marks them unwritten (DESIGN CHOICE, logs 2
and 3; unsafe). -/
def State.resetOf (n : LaneCount) : State where
  lanes := n
  v := Vector.replicate 8 ⟨Vec.bcast n.count 0x00, false⟩
  zm := ⟨List.replicate n.count false, false⟩
  status := { fail := false, ill := false, lane := 0 }
  rsp := none
  inFlight := none
  position := 0
  pending := []
  received := []

/-- The machine right after reset, with "the default and reference value" of N (00_scope.md R5). -/
def State.reset : State := State.resetOf Config.defaultLanes

end Sys2Proof.Machine
end

