-- ==== Sys2Proof/Machine/Ops.lean ====
section
/-! DEFINITION. The operations on the state that the meanings share: register access, the events (60_exceptions.md
R300 to R302), and completion (44_host_port.md R202, R203). -/

namespace Sys2Proof.Machine

open Sys2Proof

/-! ## STATUS -/

/-- STATUS.OFFSET, "hardwired to 0" (10_state.md R29). -/
def Status.offset : BitVec 16 := 0

/-- STATUS as its 32 bits (10_state.md R25): reserved bits and OFFSET read 0 (R29, R30). -/
def Status.word (st : Status) : Word :=
  Status.offset ++ (0 : BitVec 2) ++ st.lane ++ (0 : BitVec 6) ++ BitVec.ofBool st.ill ++ BitVec.ofBool st.fail

namespace State

/-- The lane count N. -/
def n (s : State) : Nat := s.lanes.count

/-! ## Registers -/

/-- `V[r]` (00_scope.md R10). An unwritten register reads as what it holds (10_state.md R23; log 2). -/
def reg (s : State) (r : VReg) : Vec := (s.v[r]).value

/-- The 8N-bit image of `V[r]` (10_state.md R22). -/
def regImage (s : State) (r : VReg) : BitVec (8 * s.n) := Vec.image s.n (s.reg r)

/-- Whether `V[r]` has been written since reset (10_state.md R23). -/
def regWritten (s : State) (r : VReg) : Bool := (s.v[r]).written

/-- `V[d] <- x`: "every write replaces all N lanes" (10_state.md R22) and marks the register written (R23). -/
def writeReg (s : State) (d : VReg) (x : Vec) : State :=
  { s with v := s.v.set d ⟨x, true⟩ }

/-- `ZM <- m` (10_state.md R24). -/
def writeZm (s : State) (m : LaneMask) : State :=
  { s with zm := ⟨m, true⟩ }

/-- `DIN`, "the N-byte payload the host drives with a command" (00_scope.md R10): that of the command in flight. The
machine runs a meaning only for a command in flight; without one the model reads zeros (log 10). -/
def din (s : State) : Vec :=
  match s.inFlight with
  | some c => c.data
  | none => Vec.bcast s.n 0x00

/-! ## Events -/

/-- What an event records (60_exceptions.md R300 to R302). Neither event transfers control, and there is nothing to
return from (R306, R307). -/
def raise (e : Event) (s : State) : State :=
  match e with
  | .invalidCharacter k => { s with status := { s.status with fail := true, lane := BitVec.ofNat 6 k } }
  | .illegalCommand => { s with status := { s.status with ill := true } }

/-- The other outcome of a reporter: FAIL and LANE become 0 (43_invalid_detector.md R182). -/
def pass (s : State) : State :=
  { s with status := { s.status with fail := false, lane := 0 } }

/-- FAIL, ILL and LANE become 0 (43_invalid_detector.md R186). -/
def clearStatus (s : State) : State :=
  { s with status := { fail := false, ill := false, lane := 0 } }

/-! ## Completion -/

/-- A command completes: "RSP takes the pair (STATUS after the command, DOUT)" (10_state.md R36), the command is no
longer in flight, and the position advances by 1 (R34). -/
def complete (s : State) (dout : Vec) : State :=
  { s with rsp := some ⟨s.status.word, dout⟩, inFlight := none, position := s.position + 1 }

end State

/-- The end of every command but VOUT: DOUT is "all zero (0x00 in every lane)" (44_host_port.md R204). -/
def finish (s : State) : Host.Outcome State Fault Refusal :=
  .next (s.complete (Vec.bcast s.n 0x00))

/-- A word that spells no command: it raises IllegalCommand, "still completes and produces a response, with DOUT all
zero" (30_encoding.md R77). -/
def illegalCommand (s : State) : Host.Outcome State Fault Refusal :=
  finish (s.raise .illegalCommand)

end Sys2Proof.Machine
end

