-- ==== Sys2Proof/Machine/Operands.lean ====
section
/-! DEFINITION. The operand forms and the lane functions of the primitive commands (30_encoding.md R74,
41_lane_primitives.md R140 to R150, 42_permutation_lookup.md R171). -/

namespace Sys2Proof

/-- `zext_8(IMM8) = u8(IMM8)`: "Nothing sign-extends IMM8" (30_encoding.md R74). -/
def zext8 (imm : Byte) : Nat := imm.u8

/-! ## Lane functions -/

/-- The two values of a compare lane: "0xFF where the relation holds and 0x00 where it does not" (R140). -/
def laneTrue : Byte := 0xFF

/-- See `laneTrue`. -/
def laneFalse : Byte := 0x00

/-- VCMPEQ's lane (R142). -/
def laneEq (imm x : Byte) : Byte := if x.u8 = zext8 imm then laneTrue else laneFalse

/-- VCMPGE's lane (R143). -/
def laneGe (imm x : Byte) : Byte := if x.u8 ≥ zext8 imm then laneTrue else laneFalse

/-- VCMPLE's lane (R144). -/
def laneLe (imm x : Byte) : Byte := if x.u8 ≤ zext8 imm then laneTrue else laneFalse

/-- VCMPGT's lane (R145). -/
def laneGt (imm x : Byte) : Byte := if x.u8 > zext8 imm then laneTrue else laneFalse

/-- VAND's lane (R146). -/
def laneAnd (x y : Byte) : Byte := x &&& y

/-- VOR's lane (R147). -/
def laneOr (x y : Byte) : Byte := x ||| y

/-- VADD's lane (R148). -/
def laneAdd (x y : Byte) : Byte := byte ((x.u8 : Int) + (y.u8 : Int))

/-- VSUB's lane (R149). -/
def laneSub (x y : Byte) : Byte := byte ((x.u8 : Int) - (y.u8 : Int))

/-- VBLEND's lane: the selector "is true when it is non-zero, in any bit" (R150). -/
def laneBlend (m x y : Byte) : Byte := if m ≠ 0x00 then x else y

/-- VSHUF's lane: an index of 16 or more gives 0x00 (42_permutation_lookup.md R171). -/
def laneLookup (table : Vec) (index : Byte) : Byte :=
  if index.u8 < 16 then table.lane index.u8 else 0x00

end Sys2Proof

namespace Sys2Proof.Machine

open Sys2Proof

/-! ## Forms of command: read the sources, write one register, finish (00_scope.md R11, 41_lane_primitives.md R140) -/

/-- `V[d] <- x`, and the command completes with zero DOUT. -/
def writeAndFinish (d : VReg) (x : Vec) (s : State) : Host.Outcome State Fault Refusal :=
  finish (s.writeReg d x)

/-- The form `vd, va, imm`: lane k from lane k of va. -/
def regImmForm (f : Byte → Byte → Byte) (d a : VReg) (imm : Byte) (s : State) : Host.Outcome State Fault Refusal :=
  writeAndFinish d (Vec.lanewise1 s.n (f imm) (s.reg a)) s

/-- The form `vd, va, vb`: lane k from lanes k of va and vb. -/
def regRegForm (f : Byte → Byte → Byte) (d a b : VReg) (s : State) : Host.Outcome State Fault Refusal :=
  writeAndFinish d (Vec.lanewise2 s.n f (s.reg a) (s.reg b)) s

end Sys2Proof.Machine
end

