-- ==== Sys2Proof/Machine/Classifier.lean ====
section
/-! DEFINITION. The Range Classifier (40_classifier.md R100 to R111): what it computes, and the three datapaths that
compute it. The datapaths are built from the lane functions of the primitive commands. -/

namespace Sys2Proof

/-! ## Classes and shifts -/

/-- `class(b)` (R100, R101). -/
def charClass (b : Byte) : CharClass :=
  if 65 ≤ b.u8 ∧ b.u8 ≤ 90 then .upper
  else if 97 ≤ b.u8 ∧ b.u8 ≤ 122 then .lower
  else if 48 ≤ b.u8 ∧ b.u8 ≤ 57 then .digit
  else if b.u8 = 43 then .plus
  else if b.u8 = 47 then .slash
  else .invalid

/-- `shift(b)` (R101). -/
def shift (b : Byte) : Byte := shiftConst (charClass b)

/-- `classify(x)`: the Class Shift Vector (R101). -/
def classify (n : Nat) (x : Vec) : Vec := Vec.lanewise1 n shift x

/-- "the input plus the shift vector, lane by lane, modulo 256" (R103), for a given shift vector. -/
def applyShift (n : Nat) (x sh : Vec) : Vec := Vec.lanewise2 n laneAdd x sh

/-- `decode(x)` (R103). -/
def decodeBatch (n : Nat) (x : Vec) : Vec := applyShift n x (classify n x)

/-! ## Class masks (R104) -/

/-- "byte ≥ range_low AND byte ≤ range_high" (R104). -/
def maskRange (n : Nat) (lo hi : Byte) (x : Vec) : Vec :=
  Vec.lanewise2 n laneAnd (Vec.lanewise1 n (laneGe lo) x) (Vec.lanewise1 n (laneLe hi) x)

/-- `mAZ(x)` -/
def maskUpper (n : Nat) (x : Vec) : Vec := maskRange n 65 90 x

/-- `maz(x)` -/
def maskLower (n : Nat) (x : Vec) : Vec := maskRange n 97 122 x

/-- `m09(x)` -/
def maskDigit (n : Nat) (x : Vec) : Vec := maskRange n 48 57 x

/-- `mpl(x)` -/
def maskPlus (n : Nat) (x : Vec) : Vec := Vec.lanewise1 n (laneEq 43) x

/-- `msl(x)` -/
def maskSlash (n : Nat) (x : Vec) : Vec := Vec.lanewise1 n (laneEq 47) x

/-! ## The datapaths -/

/-- One masked constant: a class mask ANDed with a broadcast constant (R105). -/
def maskedConst (n : Nat) (m : Vec) (c : Byte) : Vec := Vec.lanewise2 n laneAnd m (Vec.bcast n c)

/-- MASK (R105). -/
def maskDatapath (n : Nat) (x : Vec) : Vec :=
  let or := Vec.lanewise2 n laneOr
  or (or (or (or (maskedConst n (maskUpper n x) 0xBF) (maskedConst n (maskLower n x) 0xB9))
    (maskedConst n (maskDigit n x) 0x04)) (maskedConst n (maskPlus n x) 0x13)) (maskedConst n (maskSlash n x) 0x10)

/-- One step of the Blend-Chain: where the class mask is true the running shift takes the constant (R107). -/
def blendStep (n : Nat) (m : Vec) (c : Byte) (s : Vec) : Vec := Vec.lanewise3 n laneBlend m (Vec.bcast n c) s

/-- BLEND (R107): "The first class of this spec's datapath is A–Z", built with an AND. -/
def blendDatapath (n : Nat) (x : Vec) : Vec :=
  let s := maskedConst n (maskUpper n x) 0xBF
  let s := blendStep n (maskLower n x) 0xB9 s
  let s := blendStep n (maskDigit n x) 0x04 s
  let s := blendStep n (maskPlus n x) 0x13 s
  blendStep n (maskSlash n x) 0x10 s

/-- The bucket index of each lane (R108): each threshold exceeded subtracts the compare result 0xFF, so adds 1. -/
def bucketIndex (n : Nat) (x : Vec) : Vec :=
  thresholds.foldl (fun idx t => Vec.lanewise2 n laneSub idx (Vec.lanewise1 n (laneGt t) x)) (Vec.bcast n 0x00)

/-- PERM (R108): the bucket index, then one lookup in PTAB. -/
def permDatapath (n : Nat) (x : Vec) : Vec := Vec.lanewise1 n (laneLookup ptab) (bucketIndex n x)

/-- The datapath VAR selects (30_encoding.md R75): "VAR chooses which one computes the result" (R111). -/
def datapath : Variant → Nat → Vec → Vec
  | .mask => maskDatapath
  | .blend => blendDatapath
  | .perm => permDatapath

end Sys2Proof
end

