-- ==== Sys2Proof/Machine/Flags.lean ====
section
/-! DEFINITION. The flag computations: the zero mask, its first set bit, and the reporter outcome that writes
STATUS.FAIL and STATUS.LANE (43_invalid_detector.md R180 to R182). No other command writes a flag (10_state.md
R35). -/

namespace Sys2Proof

/-- `zmask(s)`: bit k is 1 iff lane k is 0x00 (R180). -/
def zmask (n : Nat) (x : Vec) : LaneMask := (List.range n).map fun k => x.lane k == 0x00

/-- Whether a mask is non-zero. -/
def LaneMask.nonzero (z : LaneMask) : Bool := z.any id

/-- `ffs(z)`: "the least k with z[k] = 1" (R181). It "is not used with z = 0". -/
def ffs : LaneMask → Nat
  | [] => 0
  | b :: z => if b then 0 else ffs z + 1

end Sys2Proof

namespace Sys2Proof.Machine.State

open Sys2Proof

/-- `outcome(z)` (R182). -/
def outcome (z : LaneMask) (s : State) : State :=
  if LaneMask.nonzero z then s.raise (.invalidCharacter (ffs z)) else s.pass

/-- `report(s)` (R182): ZM takes the zero mask of `x`, and the outcome follows. -/
def report (x : Vec) (s : State) : State :=
  (s.writeZm (zmask s.n x)).outcome (zmask s.n x)

end Sys2Proof.Machine.State
end

