-- ==== Sys2Proof/Machine/Composite.lean ====
section
/-! DEFINITION. The composite commands (40_classifier.md R112 to R114). -/

namespace Sys2Proof.Machine

open Sys2Proof

/-- The shared form of VCLSH and VDEC: report the shift vector `sh`, then write `x` "if STATUS.FAIL = 0"; on a failure
V[d] "keeps its old value" (R113, R114). -/
def reportThenWrite (d : VReg) (sh x : Vec) (s : State) : State :=
  let t := s.report sh
  if t.status.fail then t else t.writeReg d x

/-- VCLS (R112): classify only, by the datapath VAR selects. -/
def execVcls (d a : VReg) (var : Variant) (s : State) : Host.Outcome State Fault Refusal :=
  writeAndFinish d (datapath var s.n (s.reg a)) s

/-- VCLSH (R113): classify_and_shift. -/
def execVclsh (d a : VReg) (var : Variant) (s : State) : Host.Outcome State Fault Refusal :=
  let sh := datapath var s.n (s.reg a)
  finish (reportThenWrite d sh sh s)

/-- VDEC (R114): classify, check and decode. -/
def execVdec (d a : VReg) (var : Variant) (s : State) : Host.Outcome State Fault Refusal :=
  let sh := datapath var s.n (s.reg a)
  finish (reportThenWrite d sh (applyShift s.n (s.reg a) sh) s)

end Sys2Proof.Machine
end

