-- ==== Sys2Proof/Machine/Detector.lean ====
section
/-! DEFINITION. The parallel invalid-byte detector (43_invalid_detector.md R183 to R186). -/

namespace Sys2Proof.Machine

open Sys2Proof

/-- VZMASK (R183): `ZM <- zmask(V[a])`; STATUS is unchanged. -/
def execVzmask (a : VReg) (s : State) : Host.Outcome State Fault Refusal :=
  finish (s.writeZm (zmask s.n (s.reg a)))

/-- VFFS (R184): `outcome(ZM)`. An unwritten ZM reads as what it holds (10_state.md R24; log 3). -/
def execVffs (s : State) : Host.Outcome State Fault Refusal := finish (s.outcome s.zm.value)

/-- VCHK (R185): `report(V[a])`. -/
def execVchk (a : VReg) (s : State) : Host.Outcome State Fault Refusal := finish (s.report (s.reg a))

/-- CLRST (R186). -/
def execClrst (s : State) : Host.Outcome State Fault Refusal := finish s.clearStatus

end Sys2Proof.Machine
end

