-- ==== Sys2Proof/Machine/LanePrimitives.lean ====
section
/-! DEFINITION. The lane primitives (41_lane_primitives.md R141 to R150). -/

namespace Sys2Proof.Machine

open Sys2Proof

/-- VBCAST (R141). -/
def execVbcast (d : VReg) (imm : Byte) (s : State) : Host.Outcome State Fault Refusal :=
  writeAndFinish d (Vec.bcast s.n imm) s

/-- VCMPEQ (R142). -/
def execVcmpeq (d a : VReg) (imm : Byte) (s : State) : Host.Outcome State Fault Refusal :=
  regImmForm laneEq d a imm s

/-- VCMPGE (R143). -/
def execVcmpge (d a : VReg) (imm : Byte) (s : State) : Host.Outcome State Fault Refusal :=
  regImmForm laneGe d a imm s

/-- VCMPLE (R144). -/
def execVcmple (d a : VReg) (imm : Byte) (s : State) : Host.Outcome State Fault Refusal :=
  regImmForm laneLe d a imm s

/-- VCMPGT (R145). -/
def execVcmpgt (d a : VReg) (imm : Byte) (s : State) : Host.Outcome State Fault Refusal :=
  regImmForm laneGt d a imm s

/-- VAND (R146). -/
def execVand (d a b : VReg) (s : State) : Host.Outcome State Fault Refusal := regRegForm laneAnd d a b s

/-- VOR (R147). -/
def execVor (d a b : VReg) (s : State) : Host.Outcome State Fault Refusal := regRegForm laneOr d a b s

/-- VADD (R148). -/
def execVadd (d a b : VReg) (s : State) : Host.Outcome State Fault Refusal := regRegForm laneAdd d a b s

/-- VSUB (R149): va − vb. -/
def execVsub (d a b : VReg) (s : State) : Host.Outcome State Fault Refusal := regRegForm laneSub d a b s

/-- VBLEND (R150): lane k of va where the selector vm is true, else lane k of vb. -/
def execVblend (d m a b : VReg) (s : State) : Host.Outcome State Fault Refusal :=
  writeAndFinish d (Vec.lanewise3 s.n laneBlend (s.reg m) (s.reg a) (s.reg b)) s

end Sys2Proof.Machine
end

