-- ==== Sys2Proof/Machine/Lookup.lean ====
section
/-! DEFINITION. The permutation-table lookup (42_permutation_lookup.md R170, R171). -/

namespace Sys2Proof.Machine

open Sys2Proof

/-- VLDPT (R170): PTAB in lanes 0 to 15, 0x00 in the lanes above. -/
def execVldpt (d : VReg) (s : State) : Host.Outcome State Fault Refusal :=
  writeAndFinish d (Vec.tab s.n fun k => if k < 16 then ptab.lane k else 0x00) s

/-- VSHUF (R171): one lookup a lane in lanes 0 to 15 of vt. -/
def execVshuf (d t i : VReg) (s : State) : Host.Outcome State Fault Refusal :=
  writeAndFinish d (Vec.lanewise1 s.n (laneLookup (s.reg t)) (s.reg i)) s

end Sys2Proof.Machine
end

