-- ==== Sys2Proof/Machine/Port.lean ====
section
/-! DEFINITION. The port commands (44_host_port.md R205 to R207). -/

namespace Sys2Proof.Machine

open Sys2Proof

/-- NOP (R205): "no state changes"; the response carries the current STATUS. -/
def execNop (s : State) : Host.Outcome State Fault Refusal := finish s

/-- VIN (R206): all N lanes of DIN, "as given". -/
def execVin (d : VReg) (s : State) : Host.Outcome State Fault Refusal :=
  writeAndFinish d (Vec.lanewise1 s.n id s.din) s

/-- VOUT (R207): `DOUT <- V[a]`. -/
def execVout (a : VReg) (s : State) : Host.Outcome State Fault Refusal := .next (s.complete (s.reg a))

end Sys2Proof.Machine
end

