-- ==== Sys2Proof/Machine/Dispatch.lean ====
section
/-! DEFINITION. One arm per command (30_encoding.md R76). -/

namespace Sys2Proof.Machine

open Sys2Proof

/-- What a command does when it completes (44_host_port.md R202): its effects and its response. -/
def exec (i : Instr) (s : State) : Host.Outcome State Fault Refusal :=
  match i with
  -- the port
  | .nop => Sys2Proof.Machine.execNop s
  | .vin d => Sys2Proof.Machine.execVin d s
  | .vout a => Sys2Proof.Machine.execVout a s
  -- the lane primitives
  | .vbcast d imm => Sys2Proof.Machine.execVbcast d imm s
  | .vcmpeq d a imm => Sys2Proof.Machine.execVcmpeq d a imm s
  | .vcmpge d a imm => Sys2Proof.Machine.execVcmpge d a imm s
  | .vcmple d a imm => Sys2Proof.Machine.execVcmple d a imm s
  | .vcmpgt d a imm => Sys2Proof.Machine.execVcmpgt d a imm s
  | .vand d a b => Sys2Proof.Machine.execVand d a b s
  | .vor d a b => Sys2Proof.Machine.execVor d a b s
  | .vadd d a b => Sys2Proof.Machine.execVadd d a b s
  | .vsub d a b => Sys2Proof.Machine.execVsub d a b s
  | .vblend d m a b => Sys2Proof.Machine.execVblend d m a b s
  -- the permutation-table lookup
  | .vldpt d => Sys2Proof.Machine.execVldpt d s
  | .vshuf d t ix => Sys2Proof.Machine.execVshuf d t ix s
  -- the invalid-byte detector
  | .vzmask a => Sys2Proof.Machine.execVzmask a s
  | .vffs => Sys2Proof.Machine.execVffs s
  | .vchk a => Sys2Proof.Machine.execVchk a s
  | .clrst => Sys2Proof.Machine.execClrst s
  -- the composite commands
  | .vcls d a var => Sys2Proof.Machine.execVcls d a var s
  | .vclsh d a var => Sys2Proof.Machine.execVclsh d a var s
  | .vdec d a var => Sys2Proof.Machine.execVdec d a var s

end Sys2Proof.Machine
end

