-- ==== Sys2Proof/Machine/Handshake.lean ====
section
/-! DEFINITION. The ports and their handshake (44_host_port.md R200 to R204, 70_reset_and_hazards.md R400, R401): what
happens at one rising edge of `clk`. -/

namespace Sys2Proof.Machine

open Sys2Proof

namespace State

/-! ## Outputs (R200) -/

/-- `cmd_ready`: 0 while `rst` = 1 (R400) and from acceptance "until that command's response has been taken" (R202),
else 1 (log 6). -/
def cmdReady (s : State) (rst : Bool) : Bool := !rst && s.inFlight.isNone && s.rsp.isNone

/-- `rsp_valid`: "RSP holds a response" (R200); 0 while `rst` = 1 (R400). -/
def rspValid (s : State) (rst : Bool) : Bool := !rst && s.rsp.isSome

/-- `rsp_status`; no value is stated while RSP is empty (log 14). -/
def rspStatus (s : State) : Option Word := s.rsp.map Response.status

/-- `rsp_data`: the 8N-bit image of DOUT (20_memory.md R52); no value is stated while RSP is empty (log 14). -/
def rspData (s : State) : Option (BitVec (8 * s.n)) := s.rsp.map fun r => Vec.image s.n r.data

end State

/-- `cmd_data` of an instance of `n` lanes: 8N bits (44_host_port.md R200). -/
def Edge.bus (n : Nat) (e : Edge) : BitVec (8 * n) := BitVec.ofNat (8 * n) e.cmdData

/-- The command an edge offers to an instance of `n` lanes: `cmd_word`, and lane k of the payload from bits [8k+7:8k] of
`cmd_data` (R200, 20_memory.md R52). -/
def Edge.command (n : Nat) (e : Edge) : Command := ⟨e.cmdWord, Vec.ofImage n (e.bus n)⟩

/-- What one rising edge is for VBRC. -/
inductive EdgeEvent where
  /-- `rst` = 1 (R400) -/
  | reset
  /-- the host takes the response (R202) -/
  | taken (r : Response)
  /-- the command in flight completes (R202) -/
  | completed (c : Command)
  /-- a command is accepted (R201) -/
  | accepted (c : Command)
  /-- nothing changes -/
  | quiet
deriving DecidableEq, Repr

namespace State

/-- Which event an edge is. A response is taken where `rsp_valid` = 1 and `rsp_ready` = 1, a command accepted where
`cmd_valid` = 1, `cmd_ready` = 1 and `rst` = 0 (R201, R202); a command in flight completes at an edge after the one
that accepted it (R202, LAT ≥ 1), at which one being the free choice `done` (log 5). -/
def edgeEvent (e : Edge) (s : State) : EdgeEvent :=
  if e.rst then .reset
  else match s.rsp, s.inFlight with
    | some r, _ => if e.rspReady then .taken r else .quiet
    | none, some c => if e.done then .completed c else .quiet
    | none, none => if e.cmdValid then .accepted (e.command s.n) else .quiet

/-- The reset state, entered at an edge with `rst` = 1 (R400, R401): a command in flight is abandoned and gives no
response. N is a parameter and stays; the host's coming edges are the host's. -/
def afterReset (s : State) : State := { State.resetOf s.lanes with pending := s.pending }

/-- "At that edge VBRC takes `cmd_word` and, for VIN, `cmd_data`" (R201). No other command reads the payload. -/
def accept (c : Command) (s : State) : State := { s with inFlight := some c }

/-- "RSP then empties" (R202), and the host has the response. -/
def take (r : Response) (s : State) : State := { s with rsp := none, received := s.received ++ [r] }

end State

/-! ## Edges a host drives -/

namespace Edge

/-- No input is 1. -/
def idle : Edge :=
  { rst := false, cmdValid := false, cmdWord := 0, cmdData := 0, rspReady := false, done := false }

/-- The host offers a command. -/
def offer (c : Command) : Edge := { idle with cmdValid := true, cmdWord := c.word, cmdData := Vec.imageNat c.data }

/-- The command in flight completes at this edge (log 5). -/
def complete : Edge := { idle with done := true }

/-- The host takes the response. -/
def takes : Edge := { idle with rspReady := true }

/-- The host asserts `rst`. -/
def resets : Edge := { idle with rst := true }

end Edge

/-- The edges that run one command, with the least latency: offered, completed, its response taken. -/
def runOne (c : Command) : List Edge := [Edge.offer c, Edge.complete, Edge.takes]

/-- The edges that run a sequence of commands, in order: how a program comes to run (log 7). -/
def program (cs : List Command) : List Edge := cs.flatMap runOne

end Sys2Proof.Machine
end

