-- ==== Sys2Proof/Machine/Step.lean ====
section
/-! DEFINITION. One step is one rising edge of `clk` (44_host_port.md R200: "State changes only at rising edges"). -/

namespace Sys2Proof.Machine

open Sys2Proof

/-- A command word is "decoded by 30_encoding.md rule R77 and executed by its rule" (44_host_port.md R201). -/
def runWord (w : Word) (s : State) : Host.Outcome State Fault Refusal :=
  match decode w with
  | .ok i => exec i s
  | .error _ => illegalCommand s

/-- One edge (44_host_port.md R201, R202, 70_reset_and_hazards.md R400). -/
def stepEdge (e : Edge) (s : State) : Host.Outcome State Fault Refusal :=
  match s.edgeEvent e with
  | .reset => .next s.afterReset
  | .taken r => .next (s.take r)
  | .completed c => runWord c.word s
  | .accepted c => .next (s.accept c)
  | .quiet => .next s

/-- One step: the next edge of `pending`. With no edge left nothing happens: "With no command to run it is idle, holding
its state" (60_exceptions.md R314). -/
def step (s : State) : Host.Outcome State Fault Refusal :=
  match s.pending with
  | [] => .next s
  | e :: rest => stepEdge e { s with pending := rest }

/-- `s` with this word in flight, accepted with a payload of zeros, RSP empty, and an edge at which it completes: the
very next step runs it (log 7). -/
def State.withFetchWord (s : State) (nbits w : Nat) : State :=
  { s with
    inFlight := some ⟨BitVec.ofNat 32 (w % 2 ^ nbits), Vec.bcast s.n 0x00⟩
    rsp := none
    pending := Edge.complete :: s.pending }

end Sys2Proof.Machine
end

