-- ==== Sys2Proof/Machine/Assembler.lean ====
section
/-! DEFINITION. The assembly language (30_encoding.md R81) and its pseudo-instructions (R82): from the characters of a
line to a command. What R81 leaves to the reader is log 12. -/

namespace Sys2Proof.Assembler

open Sys2Proof

/-! ## Terms to commands -/

/-- An operand that is in range (R81): "A negative value n encodes as `byte(n)`". -/
inductive Arg where
  | reg (r : VReg)
  | imm (b : Byte)
  | var (v : Variant)
deriving DecidableEq, Repr

/-- The argument of an operand in range. -/
def argOf : Operand → Option Arg
  | .reg n => if h : n < 8 then some (.reg ⟨n, h⟩) else none
  | .imm x => if -128 ≤ x ∧ x ≤ 255 then some (.imm (byte x)) else none
  | .var v => some (.var v)

/-- The command of a mnemonic and its arguments, in the operand order of R81, pseudo-instructions expanded (R82). -/
def build : Mnemonic → List Arg → Option Instr
  | .cmd .nop, [] => some .nop
  | .cmd .vin, [.reg d] => some (.vin d)
  | .cmd .vout, [.reg a] => some (.vout a)
  | .cmd .vbcast, [.reg d, .imm b] => some (.vbcast d b)
  | .cmd .vcmpeq, [.reg d, .reg a, .imm b] => some (.vcmpeq d a b)
  | .cmd .vcmpge, [.reg d, .reg a, .imm b] => some (.vcmpge d a b)
  | .cmd .vcmple, [.reg d, .reg a, .imm b] => some (.vcmple d a b)
  | .cmd .vcmpgt, [.reg d, .reg a, .imm b] => some (.vcmpgt d a b)
  | .cmd .vand, [.reg d, .reg a, .reg b] => some (.vand d a b)
  | .cmd .vor, [.reg d, .reg a, .reg b] => some (.vor d a b)
  | .cmd .vadd, [.reg d, .reg a, .reg b] => some (.vadd d a b)
  | .cmd .vsub, [.reg d, .reg a, .reg b] => some (.vsub d a b)
  | .cmd .vblend, [.reg d, .reg m, .reg a, .reg b] => some (.vblend d m a b)
  | .cmd .vldpt, [.reg d] => some (.vldpt d)
  | .cmd .vshuf, [.reg d, .reg t, .reg ix] => some (.vshuf d t ix)
  | .cmd .vzmask, [.reg a] => some (.vzmask a)
  | .cmd .vffs, [] => some .vffs
  | .cmd .vchk, [.reg a] => some (.vchk a)
  | .cmd .clrst, [] => some .clrst
  | .cmd .vcls, [.reg d, .reg a, .var v] => some (.vcls d a v)
  | .cmd .vclsh, [.reg d, .reg a, .var v] => some (.vclsh d a v)
  | .cmd .vdec, [.reg d, .reg a, .var v] => some (.vdec d a v)
  | .vmov, [.reg d, .reg a] => some (.vor d a a)
  | .vzero, [.reg d] => some (.vbcast d 0x00)
  | .vones, [.reg d] => some (.vbcast d 0xFF)
  | _, _ => none

/-- The command of a line, when it is well formed. -/
def command (l : AsmLine) : Option Instr :=
  if l.wf then (l.operands.mapM argOf).bind (build l.mnemonic) else none

/-! ## Characters to terms -/

/-- The name of an opcode in the assembly (R81), in capitals. -/
def opcodeName : Opcode → String
  | .nop => "NOP"
  | .vin => "VIN"
  | .vout => "VOUT"
  | .vbcast => "VBCAST"
  | .vcmpeq => "VCMPEQ"
  | .vcmpge => "VCMPGE"
  | .vcmple => "VCMPLE"
  | .vcmpgt => "VCMPGT"
  | .vand => "VAND"
  | .vor => "VOR"
  | .vadd => "VADD"
  | .vsub => "VSUB"
  | .vblend => "VBLEND"
  | .vldpt => "VLDPT"
  | .vshuf => "VSHUF"
  | .vzmask => "VZMASK"
  | .vffs => "VFFS"
  | .vchk => "VCHK"
  | .clrst => "CLRST"
  | .vcls => "VCLS"
  | .vclsh => "VCLSH"
  | .vdec => "VDEC"

/-- Every mnemonic with its name (R81, R82). -/
def mnemonics : List (String × Mnemonic) :=
  Opcode.all.map (fun o => (opcodeName o, Mnemonic.cmd o)) ++
    [("VMOV", .vmov), ("VZERO", .vzero), ("VONES", .vones)]

/-- "The mnemonic is case-insensitive" (R81). -/
def mnemonicOf (t : List Char) : Option Mnemonic :=
  (mnemonics.find? fun p => p.1.toList == t.map Char.toUpper).map Prod.snd

/-- The digits of R81's numbers, each at the place of its value. -/
def digits : List Char := "0123456789ABCDEF".toList

/-- The value of a decimal digit. -/
def digit (c : Char) : Option Nat := (digits.take 10).idxOf? c

/-- The value of a hexadecimal digit, of either case (log 12). -/
def hexDigit (c : Char) : Option Nat := digits.idxOf? c.toUpper

/-- A decimal number: one digit or more. -/
def decimal : List Char → Option Nat
  | [] => none
  | cs => (cs.mapM digit).map (List.foldl (fun n d => 10 * n + d) 0)

/-- An immediate (R81): "a decimal number ..., a hexadecimal `0x00` to `0xFF`, or a character literal `'c'` meaning its
ASCII code". -/
def immediate : List Char → Option Int
  | ['\'', c, '\''] => if c.toNat < 128 then some c.toNat else none
  | ['0', 'x', h, l] => do return ((16 * (← hexDigit h) + (← hexDigit l) : Nat) : Int)
  | '-' :: cs => (decimal cs).map fun n => -(n : Int)
  | cs => (decimal cs).map Int.ofNat

/-- "A variant is written `MASK`, `BLEND` or `PERM`" (R81). -/
def variant (t : List Char) : Option Variant :=
  if t == "MASK".toList then some .mask
  else if t == "BLEND".toList then some .blend
  else if t == "PERM".toList then some .perm
  else none

/-- An operand: a register `V0` to `V9` (of which V8 and V9 are ill formed), a variant or an immediate. -/
def operand (t : List Char) : Option Operand :=
  match t with
  | ['V', d] => (digit d).map .reg
  | _ =>
    match variant t with
    | some v => some (.var v)
    | none => (immediate t).map .imm

/-- Without the spaces at both ends. -/
def trim (t : List Char) : List Char :=
  ((t.dropWhile Char.isWhitespace).reverse.dropWhile Char.isWhitespace).reverse

/-- "A comment runs from `;` to the end of the line" (R81). The `;` of the literal `';'` starts none (log 12). -/
def stripComment : List Char → List Char
  | '\'' :: c :: '\'' :: cs => '\'' :: c :: '\'' :: stripComment cs
  | ';' :: _ => []
  | c :: cs => c :: stripComment cs
  | [] => []

/-- The pieces between commas. The `,` of the literal `','` separates nothing (log 12). -/
def splitCommas : List Char → List (List Char)
  | '\'' :: c :: '\'' :: cs =>
    match splitCommas cs with
    | [] => [['\'', c, '\'']]
    | p :: ps => ('\'' :: c :: '\'' :: p) :: ps
  | ',' :: cs => [] :: splitCommas cs
  | c :: cs =>
    match splitCommas cs with
    | [] => [[c]]
    | p :: ps => (c :: p) :: ps
  | [] => [[]]

/-- What a line of assembly is. -/
inductive Line where
  /-- no command: blank, or a comment alone -/
  | blank
  /-- one command (R81: "One command per line"; R82: "exactly one command") -/
  | command (i : Instr)
  /-- not a line of the language -/
  | bad
deriving DecidableEq, Repr

/-- The terms of a line that is not blank. -/
def parse (t : List Char) : Option AsmLine := do
  let name := t.takeWhile fun c => !c.isWhitespace
  let rest := trim (t.dropWhile fun c => !c.isWhitespace)
  let m ← mnemonicOf name
  let ops ← if rest.isEmpty then some [] else ((splitCommas rest).map trim).mapM operand
  return { mnemonic := m, operands := ops }

/-- A line of assembly (R81, R82). -/
def assemble (line : List Char) : Line :=
  match trim (stripComment line) with
  | [] => .blank
  | t =>
    match (parse t).bind command with
    | some i => .command i
    | none => .bad

end Sys2Proof.Assembler
end

