-- ==== Sys2Proof/Safety.lean ====
section
/-! DEFINITION. The terms claims use: which registers a command reads and writes, the runs whose results do not rest
on the unspecified contents of unwritten registers (10_state.md R23, R24; 93_implementation_defined.md U1, U2), the
host's side of the handshake, and the invariant of the machine. -/

namespace Sys2Proof.Safety

open Sys2Proof Sys2Proof.Machine

/-! ## What a command reads and writes -/

/-- The vector registers a command reads (R112 to R114, R141 to R150, R170, R171, R183 to R186, R205 to R207). -/
def sources : Instr → List VReg
  | .nop | .vin _ | .vbcast _ _ | .vldpt _ | .vffs | .clrst => []
  | .vout a | .vzmask a | .vchk a => [a]
  | .vcmpeq _ a _ | .vcmpge _ a _ | .vcmple _ a _ | .vcmpgt _ a _ => [a]
  | .vand _ a b | .vor _ a b | .vadd _ a b | .vsub _ a b => [a, b]
  | .vshuf _ t ix => [t, ix]
  | .vblend _ m a b => [m, a, b]
  | .vcls _ a _ | .vclsh _ a _ | .vdec _ a _ => [a]

/-- "Only VFFS ... reads it" (10_state.md R24). -/
def readsZm (i : Instr) : Bool := i == .vffs

/-- The vector register a command writes, if any; VCLSH and VDEC write theirs only when they pass (R113, R114). -/
def dest : Instr → Option VReg
  | .nop | .vout _ | .vzmask _ | .vffs | .vchk _ | .clrst => none
  | .vin d | .vbcast d _ | .vldpt d => some d
  | .vcmpeq d _ _ | .vcmpge d _ _ | .vcmple d _ _ | .vcmpgt d _ _ => some d
  | .vand d _ _ | .vor d _ _ | .vadd d _ _ | .vsub d _ _ | .vshuf d _ _ => some d
  | .vblend d _ _ _ => some d
  | .vcls d _ _ | .vclsh d _ _ | .vdec d _ _ => some d

/-- The commands that perform a reporter outcome: "VFFS, VCHK, VCLSH and VDEC" (10_state.md R26). -/
def reporter : Instr → Bool
  | .vffs | .vchk _ | .vclsh _ _ _ | .vdec _ _ _ => true
  | _ => false

/-- The commands that write ZM: "VZMASK ..., VCHK ..., VCLSH ... and VDEC" (10_state.md R24). -/
def writesZm : Instr → Bool
  | .vzmask _ | .vchk _ | .vclsh _ _ _ | .vdec _ _ _ => true
  | _ => false

/-! ## Unwritten registers -/

/-- A command reads only registers that have been written since reset: what a host must see to (70_reset_and_hazards.md
R403). -/
def readsWritten (i : Instr) (s : State) : Bool :=
  (sources i).all s.regWritten && (!readsZm i || s.zm.written)

/-- The command that completes at the next edge, if one does. -/
def nextCompletion (s : State) : Option Command :=
  match s.pending with
  | [] => none
  | e :: _ =>
    match s.edgeEvent e with
    | .completed c => some c
    | _ => none

/-- The next step reads only written registers; an illegal word reads none. -/
def stepReadsWritten (s : State) : Bool :=
  match nextCompletion s with
  | none => true
  | some c =>
    match decode c.word with
    | .ok i => readsWritten i s
    | .error _ => true

/-- The fault of the strict machine. -/
inductive Violation where
  /-- U1 and U2: a command reads an unwritten register. Raised by `strictStep` alone; safe. -/
  | unwrittenRead
deriving DecidableEq, Repr

/-- The machine that 93_implementation_defined.md U1 and U2 ask of a model: a read of an unwritten register is a fault.
Where it goes on, it is `step`. -/
def strictStep (s : State) : Host.Outcome State Violation Refusal :=
  if stepReadsWritten s then
    match step s with
    | .next t => .next t
    | .fault r => nomatch r
    | .refused r => .refused r
  else .fault .unwrittenRead

/-- Two states that a host cannot tell apart without reading an unwritten register. -/
structure SameWritten (s u : State) : Prop where
  lanes : s.lanes = u.lanes
  marks : ∀ r, s.regWritten r = u.regWritten r
  regs : ∀ r, s.regWritten r = true → s.reg r = u.reg r
  zmMark : s.zm.written = u.zm.written
  zm : s.zm.written = true → s.zm.value = u.zm.value
  status : s.status = u.status
  rsp : s.rsp = u.rsp
  inFlight : s.inFlight = u.inFlight
  position : s.position = u.position
  pending : s.pending = u.pending
  received : s.received = u.received

/-! ## The host -/

/-- "The host must hold them stable while `cmd_valid` = 1 and `cmd_ready` = 0" (44_host_port.md R201), of two edges one
after the other. The step does not need it: it takes the values of the edge that accepts (log 9). -/
def holdsStable (s : State) (e e' : Edge) : Bool :=
  !(e.cmdValid && !s.cmdReady e.rst) || e'.command s.n == e.command s.n

/-- VBRC waits for a command: nothing in flight and no response to take. -/
def Waiting (s : State) : Prop := s.inFlight = none ∧ s.rsp = none

/-- One whole command: accepted, run, its response taken. "The result of a command sequence is therefore the sequential
composition of its commands' rules" (20_memory.md R57): this is one link of it, with no edges in it. -/
def transact (c : Command) (s : State) : Host.Outcome State Fault Refusal :=
  match runWord c.word (s.accept c) with
  | .next t =>
    match t.rsp with
    | some r => .next (t.take r)
    | none => .next t
  | o => o

/-! ## Effects -/

/-- What completing a command does beside its own effect (44_host_port.md R202, R203, 10_state.md R34): the response
holds the new STATUS and `dout`, nothing is in flight, the position advances by 1, and the rest is unchanged. -/
structure Completed (s t : State) (dout : Vec) : Prop where
  rsp : t.rsp = some ⟨t.status.word, dout⟩
  inFlight : t.inFlight = none
  position : t.position = s.position + 1
  lanes : t.lanes = s.lanes
  pending : t.pending = s.pending
  received : t.received = s.received

/-- A vector of N lanes, all 0x00: DOUT of every command but VOUT (44_host_port.md R204). -/
def zeros (s : State) : Vec := List.replicate s.n 0x00

/-- The vector registers but `d` are unchanged, marks and all. -/
def OthersKept (s t : State) (d : VReg) : Prop :=
  ∀ r, r ≠ d → t.reg r = s.reg r ∧ t.regWritten r = s.regWritten r

/-- Register `d` holds N lanes, lane k equal to `f k`, and is written. -/
def Holds (t : State) (d : VReg) (f : Nat → Byte) : Prop :=
  (t.reg d).length = t.n ∧ (∀ k, k < t.n → (t.reg d).lane k = f k) ∧ t.regWritten d = true

/-- The effect of a command that writes one vector register and nothing else: lane k of `d` becomes `f k`. -/
structure WritesLanes (s t : State) (d : VReg) (f : Nat → Byte) : Prop where
  holds : Holds t d f
  others : OthersKept s t d
  zm : t.zm = s.zm
  status : t.status = s.status
  completed : Completed s t (zeros s)

/-- The N-bit value `z` is the zero mask of `x` (43_invalid_detector.md R180). -/
def IsZeroMask (n : Nat) (x : Vec) (z : LaneMask) : Prop :=
  z.length = n ∧ ∀ k, k < n → (z[k]? = some true ↔ x.lane k = 0x00)

/-- FAIL and LANE are those of the reporter outcome for the mask `z`, and ILL is as it was (43_invalid_detector.md R181,
R182): FAIL = 0 and LANE = 0 where no bit is set, else FAIL = 1 and LANE is the least set bit. -/
def IsOutcome (s t : State) (z : LaneMask) : Prop :=
  t.status.ill = s.status.ill ∧
  (((∀ b ∈ z, b = false) ∧ t.status.fail = false ∧ t.status.lane = 0) ∨
    ∃ k, z[k]? = some true ∧ (∀ j, j < k → z[j]? = some false) ∧ t.status.fail = true ∧ t.status.lane.toNat = k)

/-! ## Words and edges -/

/-- A register as the 3 bits of its field (30_encoding.md R73). -/
def regField (r : VReg) : BitVec 3 := BitVec.ofNat 3 r.val

/-- The pattern of a command word, RSV zero (30_encoding.md R72): `oooooo ddd aaa bbb mmm 0000 vv iiiiiiii`. -/
def pattern (op : BitVec 6) (d a b m : BitVec 3) (var : BitVec 2) (imm : Byte) : Word :=
  op ++ d ++ a ++ b ++ m ++ (0#4) ++ var ++ imm

/-- The words 60_exceptions.md R302 calls illegal: "an unassigned opcode, a non-zero bit in a field its format does not
use, or VAR = 3", the second by the mask column of 30_encoding.md R72. -/
def SpellsNoCommand (w : Word) : Prop :=
  (∀ o : Opcode, o.number ≠ w.extractLsb' 26 6) ∨
  (∃ o : Opcode, o.number = w.extractLsb' 26 6 ∧ w &&& o.format.mask ≠ o.number ++ (0#26)) ∨
  (∃ o : Opcode, o.number = w.extractLsb' 26 6 ∧ o.format = .fv ∧ w.extractLsb' 8 2 = 3#2)

/-- The next edge has `rst` = 1. -/
def AtReset (s : State) : Prop := ∃ e rest, s.pending = e :: rest ∧ e.rst = true

/-- The command `i` completes at the next edge. -/
def Completes (s : State) (i : Instr) : Prop := ∃ c, nextCompletion s = some c ∧ decode c.word = .ok i

/-- An illegal word completes at the next edge. -/
def CompletesIllegal (s : State) : Prop := ∃ c x, nextCompletion s = some c ∧ decode c.word = .error x

/-! ## The invariant -/

/-- What holds of every state a run reaches. -/
structure Inv (s : State) : Prop where
  /-- every register has N lanes (10_state.md R21, R22) -/
  regLanes : ∀ r, (s.reg r).length = s.n
  /-- ZM has N bits (10_state.md R24) -/
  zmLanes : s.zm.value.length = s.n
  /-- LANE names a lane (10_state.md R28) -/
  laneInRange : s.status.lane.toNat < s.n
  /-- "When the outcome passes, LANE is 0" (10_state.md R28) -/
  laneOnlyOnFail : s.status.fail = false → s.status.lane = 0
  /-- "At most one command is in flight" and none while a response waits (44_host_port.md R202) -/
  oneAtATime : s.rsp = none ∨ s.inFlight = none
  /-- a payload is N lanes (20_memory.md R54) -/
  payloadLanes : ∀ c, s.inFlight = some c → c.data.length = s.n
  /-- RSP holds STATUS as it is, since no state changes while it waits (10_state.md R36) -/
  rspIsCurrent : ∀ r, s.rsp = some r → r.status = s.status.word ∧ r.data.length = s.n
  /-- one response a command (44_host_port.md R203) -/
  oneResponseEach : s.received.length + s.rsp.toList.length = s.position

end Sys2Proof.Safety
end

