-- ==== Sys2Proof/Certificates/Slice0/Obligations.lean ====
section
/-! DEFINITION. The statements for the provers, from the numbered rules of spec/. The terms they share are in
Sys2Proof/Safety.lean. Where a command reads a register that nothing has written since reset, a statement speaks of what
that register holds, which is the model's choice (logs 2 and 3). -/

open Sys2Proof Sys2Proof.Machine Sys2Proof.Safety

/-! ## Encoding (30_encoding.md) -/

/-- Words written out from the fields and patterns of R71 and R72 and the opcodes of R76, one or more of each family,
decode to their commands; R81 gives the VBLEND word. -/
def Obligations.SpecWordsDecode : Prop :=
  decode 0x00000000 = .ok .nop ∧
  decode 0x04000000 = .ok (.vin 0) ∧
  decode 0x08100000 = .ok (.vout 1) ∧
  decode 0x0D0000BF = .ok (.vbcast 2 0xBF) ∧
  decode 0x2900005A = .ok (.vcmple 2 0 90) ∧
  decode 0x53AE4000 = .ok (.vblend 7 1 2 7) ∧
  decode 0x66260000 = .ok (.vshuf 4 2 3) ∧
  decode 0x80700000 = .ok (.vzmask 7) ∧
  decode 0x8C000000 = .ok .clrst ∧
  decode 0xA8800200 = .ok (.vdec 1 0 .perm)

/-- Decoding the word of a command gives the command back, with every operand at every value. -/
def Obligations.DecodeEncodeRoundTrip : Prop :=
  ∀ i : Instr, decode (encode i) = .ok i

/-- A legal word is the encoding of the command it decodes to: "Every word is either legal under rule R77 and given by
its rule, or illegal" (R78), and no two words spell one command. -/
def Obligations.EncodeDecodeRoundTrip : Prop :=
  ∀ (w : Word) (i : Instr), decode w = .ok i → encode i = w

/-- A word is legal exactly when R77 lets it pass: by the masks of R72 and the opcodes of R76. -/
def Obligations.LegalExactlyByMask : Prop :=
  ∀ w : Word, (∃ i, decode w = .ok i) ↔ ¬ SpellsNoCommand w

/-- R79. -/
def Obligations.NopHasExactlyOneEncoding : Prop :=
  (∀ w : Word, decode w = .ok .nop ↔ w = 0x00000000) ∧
  ∀ w : Word, w.extractLsb' 26 6 = 0#6 → w ≠ 0x00000000 → ∃ x, decode w = .error x

/-- Lines of assembly in the syntax of R81 assemble to their commands, the first being R81's own example; a register or
an immediate out of range does not. That spaces around the command count for nothing,
and that a line of a comment alone is blank, are the model's choices (log 12). -/
def Obligations.SpecLinesAssemble : Prop :=
  Assembler.assemble "VBLEND V7, V1, V2, V7".toList = .command (.vblend 7 1 2 7) ∧
  encode (.vblend 7 1 2 7) = 0x53AE4000 ∧
  Assembler.assemble "  vbcast V2, -65 ; the A-Z shift".toList = .command (.vbcast 2 0xBF) ∧
  Assembler.assemble "VBCAST V2, 0xBF".toList = .command (.vbcast 2 0xBF) ∧
  Assembler.assemble "VCMPEQ V1, V0, '+'".toList = .command (.vcmpeq 1 0 43) ∧
  Assembler.assemble "Vdec V1, V0, PERM".toList = .command (.vdec 1 0 .perm) ∧
  Assembler.assemble "VADD V1, V8, V0".toList = .bad ∧
  Assembler.assemble "VBCAST V1, 256".toList = .bad ∧
  Assembler.assemble "; nothing".toList = .blank

/-- The assembler has a command for exactly the well-formed lines (R81). -/
def Obligations.AssemblerAcceptsWellFormedLines : Prop :=
  ∀ l : AsmLine, (Assembler.command l).isSome = true ↔ l.wf = true

/-- R82: each pseudo-instruction is one command, with the effect of the table. -/
def Obligations.PseudoInstructionsExpand : Prop :=
  ∀ (d a : VReg) (s : State),
    (∃ i t, Assembler.command ⟨.vmov, [.reg d.val, .reg a.val]⟩ = some i ∧ i = .vor d a a ∧
      exec i s = .next t ∧ WritesLanes s t d fun k => (s.reg a).lane k) ∧
    (∃ i t, Assembler.command ⟨.vzero, [.reg d.val]⟩ = some i ∧ i = .vbcast d 0 ∧
      exec i s = .next t ∧ WritesLanes s t d fun _ => 0x00) ∧
    (∃ i t, Assembler.command ⟨.vones, [.reg d.val]⟩ = some i ∧ i = .vbcast d 0xFF ∧
      exec i s = .next t ∧ WritesLanes s t d fun _ => 0xFF)

/-! ## The handshake (44_host_port.md, 70_reset_and_hazards.md) -/

/-- A step runs the decoded command: at an edge where the command in flight completes, the step is `exec` of the command
its word spells, on the state with that edge consumed. At which edge a command completes is the model's free choice
(log 5). -/
def Obligations.StepRunsTheDecodedCommand : Prop :=
  ∀ (s : State) (e : Edge) (rest : List Edge) (c : Command) (i : Instr),
    s.pending = e :: rest → e.rst = false → e.done = true → s.rsp = none → s.inFlight = some c →
    decode c.word = .ok i →
    step s = exec i { s with pending := rest }

/-- R302: an illegal word sets ILL, changes no register and no other field, and completes with zero DOUT. -/
def Obligations.IllegalWordSetsIllOnly : Prop :=
  ∀ (s : State) (e : Edge) (rest : List Edge) (c : Command),
    s.pending = e :: rest → e.rst = false → e.done = true → s.rsp = none → s.inFlight = some c →
    SpellsNoCommand c.word →
    ∃ t, step s = .next t ∧ t.status = { s.status with ill := true } ∧ t.v = s.v ∧ t.zm = s.zm ∧
      Completed { s with pending := rest } t (zeros s)

/-- R201: a command is accepted exactly at an edge with `cmd_valid` = 1, `cmd_ready` = 1 and `rst` = 0, and VBRC takes
its word and its payload, lane k from bits [8k+7:8k] of `cmd_data`; nothing else changes. That `cmd_ready` is 1 whenever
VBRC waits is log 6. -/
def Obligations.CommandAcceptedWhenReady : Prop :=
  ∀ (s : State) (e : Edge) (rest : List Edge), s.pending = e :: rest → s.inFlight = none →
    (e.cmdValid = true ∧ s.cmdReady e.rst = true →
      ∃ data : Vec, data.length = s.n ∧ (∀ k, k < s.n → data.lane k = (e.bus s.n).extractLsb' (8 * k) 8) ∧
        step s = .next { s with pending := rest, inFlight := some ⟨e.cmdWord, data⟩ }) ∧
    (¬ (e.cmdValid = true ∧ s.cmdReady e.rst = true) → ∃ t, step s = .next t ∧ t.inFlight = none)

/-- R202: the response is taken at an edge with `rsp_valid` = 1 and `rsp_ready` = 1; RSP empties, and nothing else changes.
R202 says that `cmd_ready` "may rise again" then; that it rises at once is the model's reading (log 6). -/
def Obligations.ResponseTakenWhenReady : Prop :=
  ∀ (s : State) (e : Edge) (rest : List Edge) (r : Response), s.pending = e :: rest → s.rsp = some r →
    s.inFlight = none → e.rspReady = true → s.rspValid e.rst = true →
    ∃ t, step s = .next t ∧ t = { s with pending := rest, rsp := none, received := s.received ++ [r] } ∧
      t.rspValid false = false ∧ t.cmdReady false = true

/-- R400: at an edge with `rst` = 1 VBRC enters the reset state, whatever it was doing, and shows neither
`cmd_ready` nor `rsp_valid` while `rst` = 1. -/
def Obligations.ResetEdgeEntersResetState : Prop :=
  ∀ (s : State) (e : Edge) (rest : List Edge), s.pending = e :: rest → e.rst = true →
    s.cmdReady e.rst = false ∧ s.rspValid e.rst = false ∧
    ∃ t, step s = .next t ∧ t.lanes = s.lanes ∧ t.pending = rest ∧ t.status.word = 0 ∧
      (∀ r, t.regWritten r = false) ∧ t.zm.written = false ∧ t.rsp = none ∧ t.inFlight = none ∧
      t.cmdReady false = true

/-- R37, for every lane count: STATUS is 0 in every field, RSP is empty, and V0 to V7 and ZM are unwritten. What the
unwritten registers hold is the model's choice (logs 2 and 3) and is not stated. -/
def Obligations.ResetStateHasSpecValues : Prop :=
  State.reset = State.resetOf .n16 ∧
  ∀ n : LaneCount,
    (State.resetOf n).lanes = n ∧
    (State.resetOf n).status.fail = false ∧ (State.resetOf n).status.ill = false ∧
    (State.resetOf n).status.lane = 0 ∧ (State.resetOf n).status.word = 0x00000000 ∧
    (∀ r, (State.resetOf n).regWritten r = false) ∧ (State.resetOf n).zm.written = false ∧
    (State.resetOf n).rsp = none ∧ (State.resetOf n).inFlight = none

/-- R25, R29, R30: STATUS as a word has FAIL, ILL and LANE at their bits, and 0 at the reserved bits and OFFSET. -/
def Obligations.StatusWordLayout : Prop :=
  ∀ st : Status, st.word.getLsbD 0 = st.fail ∧ st.word.getLsbD 1 = st.ill ∧ st.word.extractLsb' 2 6 = 0#6 ∧
    st.word.extractLsb' 8 6 = st.lane ∧ st.word.extractLsb' 14 2 = 0#2 ∧ st.word.extractLsb' 16 16 = 0#16

/-- R8: lane k is bits [8k+7:8k] of the 8N-bit image of a register or a bus, and an image and its lanes are each other's
only counterpart. -/
def Obligations.LaneKIsBits8kOfTheImage : Prop :=
  (∀ (s : State) (r : VReg) (k : Nat), k < s.n → (s.regImage r).extractLsb' (8 * k) 8 = (s.reg r).lane k) ∧
  ∀ n : Nat,
    (∀ w : BitVec (8 * n), (∀ k, k < n → (Vec.ofImage n w).lane k = w.extractLsb' (8 * k) 8) ∧
      Vec.image n (Vec.ofImage n w) = w) ∧
    ∀ x : Vec, x.length = n → Vec.ofImage n (Vec.image n x) = x

/-- R52, R200: while a response waits, lane k of its DOUT is bits [8k+7:8k] of `rsp_data`. -/
def Obligations.ResponseBusCarriesDout : Prop :=
  ∀ (s : State) (r : Response), s.rsp = some r →
    ∃ w : BitVec (8 * s.n), s.rspData = some w ∧ ∀ k, k < s.n → w.extractLsb' (8 * k) 8 = r.data.lane k

/-- R51, R52, R55: the 8N bits VIN takes from `cmd_data` are the 8N bits VOUT gives on `rsp_data`. -/
def Obligations.PayloadComesBackOnTheBus : Prop :=
  ∀ (s : State) (e : Edge) (r : VReg), ∃ t u, exec (.vin r) (s.accept (e.command s.n)) = .next t ∧
    exec (.vout r) t = .next u ∧ u.lanes = s.lanes ∧ u.rspData = some (e.bus u.n)

/-! ## The port commands (44_host_port.md) -/

/-- R205. -/
def Obligations.NopChangesNothing : Prop :=
  decode 0x00000000 = .ok .nop ∧ decode 0x00000001 = .error .nonzeroUnusedField ∧
  ∀ s : State, ∃ t, exec .nop s = .next t ∧ t.v = s.v ∧ t.zm = s.zm ∧ t.status = s.status ∧
    Completed s t (zeros s)

/-- R206: every lane of the payload of the command in flight, unchecked. -/
def Obligations.VinLoadsThePayload : Prop :=
  ∀ d : VReg, decode (pattern 0x01 (regField d) 0 0 0 0 0) = .ok (.vin d) ∧
    ∀ (s : State) (c : Command), s.inFlight = some c →
      ∃ t, exec (.vin d) s = .next t ∧ WritesLanes s t d fun k => c.data.lane k

/-- R207: no state changes, and the response holds the register. -/
def Obligations.VoutReturnsTheRegister : Prop :=
  ∀ a : VReg, decode (pattern 0x02 0 (regField a) 0 0 0 0) = .ok (.vout a) ∧
    ∀ s : State, ∃ t, exec (.vout a) s = .next t ∧ t.v = s.v ∧ t.zm = s.zm ∧ t.status = s.status ∧
      Completed s t (s.reg a)

/-- R204, for every command and for illegal words. -/
def Obligations.DoutIsZeroButForVout : Prop :=
  (∀ (i : Instr) (s t : State), exec i s = .next t →
    (∀ a, i = .vout a → t.rsp = some ⟨t.status.word, s.reg a⟩) ∧
    ((∀ a, i ≠ .vout a) → t.rsp = some ⟨t.status.word, zeros s⟩)) ∧
  ∀ s t : State, illegalCommand s = .next t → t.rsp = some ⟨t.status.word, zeros s⟩

/-! ## The lane primitives (41_lane_primitives.md) -/

/-- R141. -/
def Obligations.VbcastWritesEveryLane : Prop :=
  ∀ (d : VReg) (imm : Byte), decode (pattern 0x03 (regField d) 0 0 0 0 imm) = .ok (.vbcast d imm) ∧
    ∀ s : State, ∃ t, exec (.vbcast d imm) s = .next t ∧ WritesLanes s t d fun _ => imm

/-- R142 to R145: unsigned compares, 0xFF where the relation holds and 0x00 elsewhere. -/
def Obligations.ComparesAreUnsignedMasks : Prop :=
  ∀ (d a : VReg) (imm : Byte),
    (decode (pattern 0x08 (regField d) (regField a) 0 0 0 imm) = .ok (.vcmpeq d a imm) ∧
      decode (pattern 0x09 (regField d) (regField a) 0 0 0 imm) = .ok (.vcmpge d a imm) ∧
      decode (pattern 0x0A (regField d) (regField a) 0 0 0 imm) = .ok (.vcmple d a imm) ∧
      decode (pattern 0x0B (regField d) (regField a) 0 0 0 imm) = .ok (.vcmpgt d a imm)) ∧
    ∀ s : State,
      (∃ t, exec (.vcmpeq d a imm) s = .next t ∧
        WritesLanes s t d fun k => if ((s.reg a).lane k).toNat = imm.toNat then 0xFF else 0x00) ∧
      (∃ t, exec (.vcmpge d a imm) s = .next t ∧
        WritesLanes s t d fun k => if ((s.reg a).lane k).toNat ≥ imm.toNat then 0xFF else 0x00) ∧
      (∃ t, exec (.vcmple d a imm) s = .next t ∧
        WritesLanes s t d fun k => if ((s.reg a).lane k).toNat ≤ imm.toNat then 0xFF else 0x00) ∧
      (∃ t, exec (.vcmpgt d a imm) s = .next t ∧
        WritesLanes s t d fun k => if ((s.reg a).lane k).toNat > imm.toNat then 0xFF else 0x00)

/-- R146, R147: bit by bit. -/
def Obligations.LogicIsBitwise : Prop :=
  ∀ d a b : VReg,
    (decode (pattern 0x10 (regField d) (regField a) (regField b) 0 0 0) = .ok (.vand d a b) ∧
      decode (pattern 0x11 (regField d) (regField a) (regField b) 0 0 0) = .ok (.vor d a b)) ∧
    ∀ s : State,
      (∃ t, exec (.vand d a b) s = .next t ∧
        WritesLanes s t d fun k => (s.reg a).lane k &&& (s.reg b).lane k) ∧
      (∃ t, exec (.vor d a b) s = .next t ∧
        WritesLanes s t d fun k => (s.reg a).lane k ||| (s.reg b).lane k)

/-- R148, R149: modulo 256, and no flag is written. -/
def Obligations.ArithmeticWrapsModulo256 : Prop :=
  ∀ d a b : VReg,
    (decode (pattern 0x12 (regField d) (regField a) (regField b) 0 0 0) = .ok (.vadd d a b) ∧
      decode (pattern 0x13 (regField d) (regField a) (regField b) 0 0 0) = .ok (.vsub d a b)) ∧
    ∀ s : State,
      (∃ t, exec (.vadd d a b) s = .next t ∧ WritesLanes s t d fun k =>
        BitVec.ofNat 8 ((((s.reg a).lane k).toNat + ((s.reg b).lane k).toNat) % 256)) ∧
      (∃ t, exec (.vsub d a b) s = .next t ∧ WritesLanes s t d fun k =>
        BitVec.ofNat 8 ((256 + ((s.reg a).lane k).toNat - ((s.reg b).lane k).toNat) % 256))

/-- R150: a selector lane is true when it is non-zero. -/
def Obligations.VblendSelectsByNonzero : Prop :=
  ∀ d m a b : VReg,
    decode (pattern 0x14 (regField d) (regField a) (regField b) (regField m) 0 0) = .ok (.vblend d m a b) ∧
    ∀ s : State, ∃ t, exec (.vblend d m a b) s = .next t ∧ WritesLanes s t d fun k =>
      if (s.reg m).lane k ≠ 0x00 then (s.reg a).lane k else (s.reg b).lane k

/-- R140 "Lanewise": lane k of the result of a lane primitive, and of VCLS, depends on lane k of its sources alone: the
other lanes, and all lanes of the other registers, may differ. -/
def Obligations.LanewiseCommandsActLaneByLane : Prop :=
  ∀ (i : Instr) (d : VReg) (s u s' u' : State) (k : Nat),
    dest i = some d → s.lanes = u.lanes → k < s.n →
    (∀ r ∈ sources i, (s.reg r).lane k = (u.reg r).lane k) →
    (∀ t ix, i ≠ .vshuf d t ix) → i ≠ .vin d → reporter i = false →
    exec i s = .next s' → exec i u = .next u' →
    (s'.reg d).lane k = (u'.reg d).lane k

/-! ## The permutation lookup (42_permutation_lookup.md) -/

/-- R170: the sixteen bytes of PTAB, and 0x00 in the lanes above. -/
def Obligations.VldptLoadsTheTable : Prop :=
  ∀ d : VReg, decode (pattern 0x18 (regField d) 0 0 0 0 0) = .ok (.vldpt d) ∧
    ∀ s : State, ∃ t, exec (.vldpt d) s = .next t ∧ WritesLanes s t d fun k =>
      ([0x00, 0x13, 0x00, 0x10, 0x04, 0x00, 0xBF, 0x00, 0xB9, 0x00, 0x00, 0x00, 0x00, 0x00, 0x00, 0x00] :
        List Byte).getD k 0x00

/-- R171: lanes 0 to 15 of the table register, for every N; an index of 16 or more gives 0x00. -/
def Obligations.VshufLooksUpSixteenLanes : Prop :=
  ∀ d tb ix : VReg,
    decode (pattern 0x19 (regField d) (regField tb) (regField ix) 0 0 0) = .ok (.vshuf d tb ix) ∧
    ∀ s : State, ∃ t, exec (.vshuf d tb ix) s = .next t ∧ WritesLanes s t d fun k =>
      if ((s.reg ix).lane k).toNat < 16 then (s.reg tb).lane ((s.reg ix).lane k).toNat else 0x00

/-! ## The invalid-byte detector (43_invalid_detector.md) -/

/-- R183: ZM only. -/
def Obligations.VzmaskWritesTheZeroMask : Prop :=
  ∀ a : VReg, decode (pattern 0x20 0 (regField a) 0 0 0 0) = .ok (.vzmask a) ∧
    ∀ s : State, ∃ t, exec (.vzmask a) s = .next t ∧ IsZeroMask s.n (s.reg a) t.zm.value ∧
      t.zm.written = true ∧ t.v = s.v ∧ t.status = s.status ∧ Completed s t (zeros s)

/-- R184: the outcome of ZM, which is unchanged. ZM has N bits in every state a run reaches. -/
def Obligations.VffsReportsTheLowestSetBit : Prop :=
  decode 0x84000000 = .ok .vffs ∧
  ∀ s : State, s.zm.value.length = s.n →
    ∃ t, exec .vffs s = .next t ∧ IsOutcome s t s.zm.value ∧ t.zm = s.zm ∧ t.v = s.v ∧ Completed s t (zeros s)

/-- R185: the zero mask of the register goes to ZM and its outcome to FAIL and LANE. -/
def Obligations.VchkReportsTheRegister : Prop :=
  ∀ a : VReg, decode (pattern 0x22 0 (regField a) 0 0 0 0) = .ok (.vchk a) ∧
    ∀ s : State, ∃ t, exec (.vchk a) s = .next t ∧ IsZeroMask s.n (s.reg a) t.zm.value ∧
      t.zm.written = true ∧ IsOutcome s t t.zm.value ∧ t.v = s.v ∧ Completed s t (zeros s)

/-- R185: VCHK "is exactly VZMASK va followed by VFFS", but for the responses. -/
def Obligations.VchkIsVzmaskThenVffs : Prop :=
  ∀ (a : VReg) (s : State), ∃ t u w, exec (.vzmask a) s = .next t ∧ exec .vffs t = .next u ∧
    exec (.vchk a) s = .next w ∧ w.v = u.v ∧ w.zm = u.zm ∧ w.status = u.status ∧ w.rsp = u.rsp

/-- R186. -/
def Obligations.ClrstClearsStatus : Prop :=
  decode 0x8C000000 = .ok .clrst ∧
  ∀ s : State, ∃ t, exec .clrst s = .next t ∧ t.status.fail = false ∧ t.status.ill = false ∧ t.status.lane = 0 ∧
    t.status.word = 0x00000000 ∧ t.v = s.v ∧ t.zm = s.zm ∧ Completed s t (zeros s)

/-! ## The classifier (40_classifier.md) -/

/-- R100, R101: the five classes by their ranges, and the shift constant of each. -/
def Obligations.ShiftByCharacterRange : Prop :=
  ∀ b : Byte,
    (65 ≤ b.toNat ∧ b.toNat ≤ 90 → charClass b = .upper ∧ shift b = 0xBF) ∧
    (97 ≤ b.toNat ∧ b.toNat ≤ 122 → charClass b = .lower ∧ shift b = 0xB9) ∧
    (48 ≤ b.toNat ∧ b.toNat ≤ 57 → charClass b = .digit ∧ shift b = 0x04) ∧
    (b.toNat = 43 → charClass b = .plus ∧ shift b = 0x13) ∧
    (b.toNat = 47 → charClass b = .slash ∧ shift b = 0x10) ∧
    (b.toNat ≤ 42 ∨ (44 ≤ b.toNat ∧ b.toNat ≤ 46) ∨ (58 ≤ b.toNat ∧ b.toNat ≤ 64) ∨
      (91 ≤ b.toNat ∧ b.toNat ≤ 96) ∨ 123 ≤ b.toNat → charClass b = .invalid ∧ shift b = 0x00)

/-- R102: the sentinel is unambiguous, and exactly 64 byte values are valid. -/
def Obligations.ShiftIsZeroExactlyWhenInvalid : Prop :=
  (∀ b : Byte, shift b = 0x00 ↔ charClass b = .invalid) ∧
  ((List.range 256).filter fun v => shift (BitVec.ofNat 8 v) != 0x00).length = 64

/-- R103: byte plus shift is the canonical base64 value of a valid byte. -/
def Obligations.ShiftedByteIsItsBase64Value : Prop :=
  ∀ b : Byte,
    (65 ≤ b.toNat ∧ b.toNat ≤ 90 → (b + shift b).toNat = b.toNat - 65) ∧
    (97 ≤ b.toNat ∧ b.toNat ≤ 122 → (b + shift b).toNat = b.toNat - 71) ∧
    (48 ≤ b.toNat ∧ b.toNat ≤ 57 → (b + shift b).toNat = b.toNat + 4) ∧
    (b.toNat = 43 → (b + shift b).toNat = 62) ∧
    (b.toNat = 47 → (b + shift b).toNat = 63)

/-- R108, R109: a lane of the bucket index is the number of thresholds below the byte, at most 9, and PTAB at it is the
byte's shift. -/
def Obligations.BucketIndexCountsThresholds : Prop :=
  ∀ (n k : Nat) (x : Vec), k < n →
    ((bucketIndex n x).lane k).toNat =
      (([42, 43, 46, 47, 57, 64, 90, 96, 122] : List Nat).filter fun t => t < (x.lane k).toNat).length ∧
    ((bucketIndex n x).lane k).toNat ≤ 9 ∧
    ptab.lane ((bucketIndex n x).lane k).toNat = shift (x.lane k)

/-- R110: the three datapaths are bit-identical, and are `classify`. -/
def Obligations.ThreeDatapathsAreClassify : Prop :=
  ∀ (n : Nat) (x : Vec), maskDatapath n x = classify n x ∧ blendDatapath n x = classify n x ∧
    permDatapath n x = classify n x

/-- R75, R111: VAR changes no result of VCLS, VCLSH or VDEC. -/
def Obligations.VariantChangesNoResult : Prop :=
  ∀ (d a : VReg) (v w : Variant) (s : State), exec (.vcls d a v) s = exec (.vcls d a w) s ∧
    exec (.vclsh d a v) s = exec (.vclsh d a w) s ∧ exec (.vdec d a v) s = exec (.vdec d a w) s

/-- R112: the Class Shift Vector; VAR = 3 is illegal. -/
def Obligations.VclsWritesTheShiftVector : Prop :=
  ∀ d a : VReg,
    (decode (pattern 0x28 (regField d) (regField a) 0 0 0 0) = .ok (.vcls d a .mask) ∧
      decode (pattern 0x28 (regField d) (regField a) 0 0 1 0) = .ok (.vcls d a .blend) ∧
      decode (pattern 0x28 (regField d) (regField a) 0 0 2 0) = .ok (.vcls d a .perm) ∧
      decode (pattern 0x28 (regField d) (regField a) 0 0 3 0) = .error .reservedVariant) ∧
    ∀ (var : Variant) (s : State), ∃ t, exec (.vcls d a var) s = .next t ∧
      WritesLanes s t d fun k => shift ((s.reg a).lane k)

/-- R113: classify, report, and write the shift vector only when no byte is invalid. -/
def Obligations.VclshClassifiesAndReports : Prop :=
  ∀ d a : VReg,
    (decode (pattern 0x29 (regField d) (regField a) 0 0 0 0) = .ok (.vclsh d a .mask) ∧
      decode (pattern 0x29 (regField d) (regField a) 0 0 1 0) = .ok (.vclsh d a .blend) ∧
      decode (pattern 0x29 (regField d) (regField a) 0 0 2 0) = .ok (.vclsh d a .perm) ∧
      decode (pattern 0x29 (regField d) (regField a) 0 0 3 0) = .error .reservedVariant) ∧
    ∀ (var : Variant) (s : State), ∃ t, exec (.vclsh d a var) s = .next t ∧
      IsZeroMask s.n (classify s.n (s.reg a)) t.zm.value ∧ t.zm.written = true ∧ IsOutcome s t t.zm.value ∧
      (t.status.fail = true ↔ ∃ k, k < s.n ∧ charClass ((s.reg a).lane k) = .invalid) ∧
      (t.status.fail = false → Holds t d fun k => shift ((s.reg a).lane k)) ∧
      (t.status.fail = true → t.v = s.v) ∧ OthersKept s t d ∧ Completed s t (zeros s)

/-- R114: classify, report, and write byte plus shift only when no byte is invalid; a passing result is 6-bit. -/
def Obligations.VdecDecodesOrReports : Prop :=
  ∀ d a : VReg,
    (decode (pattern 0x2A (regField d) (regField a) 0 0 0 0) = .ok (.vdec d a .mask) ∧
      decode (pattern 0x2A (regField d) (regField a) 0 0 1 0) = .ok (.vdec d a .blend) ∧
      decode (pattern 0x2A (regField d) (regField a) 0 0 2 0) = .ok (.vdec d a .perm) ∧
      decode (pattern 0x2A (regField d) (regField a) 0 0 3 0) = .error .reservedVariant) ∧
    ∀ (var : Variant) (s : State), ∃ t, exec (.vdec d a var) s = .next t ∧
      IsZeroMask s.n (classify s.n (s.reg a)) t.zm.value ∧ t.zm.written = true ∧ IsOutcome s t t.zm.value ∧
      (t.status.fail = true ↔ ∃ k, k < s.n ∧ charClass ((s.reg a).lane k) = .invalid) ∧
      (t.status.fail = false →
        Holds t d (fun k => BitVec.ofNat 8
          ((((s.reg a).lane k).toNat + (shift ((s.reg a).lane k)).toNat) % 256)) ∧
        ∀ k, k < s.n → ((t.reg d).lane k).toNat ≤ 0x3F) ∧
      (t.status.fail = true → t.v = s.v) ∧ OthersKept s t d ∧ Completed s t (zeros s)

/-- R115, in commands: VCLSH, VADD, VSUB give the valid batch back. -/
def Obligations.ShiftThenUnshiftRestoresTheBatch : Prop :=
  ∀ (s : State) (vs vx vy vz : VReg) (var : Variant), vs ≠ vx → vs ≠ vy → (s.reg vx).length = s.n →
    (∀ k, k < s.n → charClass ((s.reg vx).lane k) ≠ .invalid) →
    ∃ t u w, exec (.vclsh vs vx var) s = .next t ∧ exec (.vadd vy vx vs) t = .next u ∧
      exec (.vsub vz vy vs) u = .next w ∧ t.status.fail = false ∧ w.reg vz = s.reg vx

/-! ## The whole machine -/

/-- No state stops: every step answers a next state. That no condition stops VBRC is the model's inference (log 16) from
"No other condition is an event" (60_exceptions.md R300) and R306. That a read of an unwritten register goes on is the
model's choice (logs 2 and 3): R23, R24, U1 and U2 tell a model to fault there, as `strictStep` does. -/
def Obligations.EveryStepGoesOn : Prop :=
  ∀ s : State, ∃ t, step s = .next t

/-- The invariant holds at reset, for every lane count. What unwritten registers hold there is the model's choice (logs
2 and 3); the invariant says only how many lanes they have. -/
def Obligations.InvariantHoldsAtReset : Prop :=
  ∀ n : LaneCount, Inv (State.resetOf n)

/-- Every step keeps the invariant. -/
def Obligations.EveryStepKeepsTheInvariant : Prop :=
  ∀ s t : State, Inv s → step s = .next t → Inv t

/-- R27: an illegal command sets ILL, CLRST and reset clear it, and nothing else changes it. -/
def Obligations.IllStaysUntilCleared : Prop :=
  ∀ s t : State, step s = .next t →
    (CompletesIllegal s → t.status.ill = true) ∧
    (Completes s .clrst ∨ AtReset s → t.status.ill = false) ∧
    (t.status.ill ≠ s.status.ill → CompletesIllegal s ∨ Completes s .clrst ∨ AtReset s)

/-- R26, R28: a reporter outcome writes FAIL and LANE from the mask it examined, which ZM holds after it; CLRST clears
both; nothing else but reset changes either. -/
def Obligations.OnlyReportersWriteFailAndLane : Prop :=
  ∀ s t : State, Inv s → step s = .next t →
    (∀ i, Completes s i → reporter i = true → IsOutcome s t t.zm.value) ∧
    (Completes s .clrst → t.status.fail = false ∧ t.status.lane = 0) ∧
    (t.status.fail ≠ s.status.fail ∨ t.status.lane ≠ s.status.lane →
      (∃ i, Completes s i ∧ (reporter i = true ∨ i = .clrst)) ∨ AtReset s)

/-- R24: which commands write ZM. The converse half is in the statements of those commands. -/
def Obligations.OnlyFourCommandsWriteZm : Prop :=
  ∀ s t : State, step s = .next t → t.zm ≠ s.zm → (∃ i, Completes s i ∧ writesZm i = true) ∨ AtReset s

/-- The frame of the vector registers over all steps: only the destination of the completing command changes, and a
written register "stays written until the next reset" (R23). -/
def Obligations.OnlyTheDestinationRegisterChanges : Prop :=
  ∀ (s t : State) (r : VReg), step s = .next t → ¬ AtReset s →
    ((t.reg r ≠ s.reg r ∨ t.regWritten r ≠ s.regWritten r) → ∃ i, Completes s i ∧ dest i = some r) ∧
    (s.regWritten r = true → t.regWritten r = true)

/-- "Between acceptance and completion no VBRC state the host can see changes" (44_host_port.md R202): only a completing
command or a reset changes V, ZM or STATUS; and while a command is in flight the response and the command itself do not
change either, and the host sees `cmd_ready` = 0 and `rsp_valid` = 0, before the step and after it. `Inv` rules out a
response beside a command in flight, which no run reaches. -/
def Obligations.RegistersChangeOnlyAtCompletion : Prop :=
  ∀ s t : State, step s = .next t → nextCompletion s = none → ¬ AtReset s →
    (t.lanes = s.lanes ∧ t.v = s.v ∧ t.zm = s.zm ∧ t.status = s.status ∧ t.position = s.position) ∧
    ∀ c, Inv s → s.inFlight = some c →
      t.rsp = s.rsp ∧ t.inFlight = some c ∧ t.received = s.received ∧
      ∀ rst, s.cmdReady rst = false ∧ t.cmdReady rst = false ∧ s.rspValid rst = false ∧ t.rspValid rst = false

/-- R203, R34: each completing command gives exactly one response, in order, carrying the STATUS after it, and advances
the position by 1, illegal words included; no other step but a reset gives a response or moves the position. That the
position counts completions is log 8. -/
def Obligations.OneResponsePerCommandInOrder : Prop :=
  ∀ s t : State, step s = .next t → ¬ AtReset s →
    (nextCompletion s = none →
      t.received ++ t.rsp.toList = s.received ++ s.rsp.toList ∧ t.position = s.position) ∧
    (nextCompletion s ≠ none →
      ∃ dout : Vec, t.received ++ t.rsp.toList = s.received ++ s.rsp.toList ++ [⟨t.status.word, dout⟩] ∧
        t.position = s.position + 1)

/-- A host that never takes a response blocks VBRC for good (44_host_port.md R208; U8): only its edges go by. -/
def Obligations.UntakenResponseBlocks : Prop :=
  ∀ (k : Nat) (s : State) (r : Response), s.rsp = some r →
    (∀ e ∈ s.pending, e.rst = false ∧ e.rspReady = false) →
    Host.Core.run core k s = .next { s with pending := s.pending.drop k }

/-- R407: results do not depend on LAT, nor on how long the host waits. From a waiting VBRC: edges without a command,
an offer, edges without completion, the completing edge, edges without a take, and the take have the result of the one
transaction, whatever else the waiting edges drive. That LAT is the free choice of each edge is log 5; that a waiting VBRC
accepts the offer at once is log 6. -/
def Obligations.ResultsHoldForEveryLatency : Prop :=
  ∀ (s : State) (quiet slow held rest : List Edge) (offer done taking : Edge),
    Waiting s →
    (∀ e ∈ quiet, e.rst = false ∧ e.cmdValid = false) →
    offer.rst = false ∧ offer.cmdValid = true →
    (∀ e ∈ slow, e.rst = false ∧ e.done = false) →
    done.rst = false ∧ done.done = true →
    (∀ e ∈ held, e.rst = false ∧ e.rspReady = false) →
    taking.rst = false ∧ taking.rspReady = true →
    s.pending = quiet ++ offer :: slow ++ done :: held ++ taking :: rest →
    ∃ t, transact (offer.command s.n) { s with pending := rest } = .next t ∧ Waiting t ∧
      Host.Core.run core (quiet.length + slow.length + held.length + 3) s = .next t

/-- What U1 and U2 are for: "no claim about a result should depend on" the contents of unwritten registers. Two states
alike but for those contents stay alike over every step that reads written registers only. -/
def Obligations.UnwrittenContentsAreNeverSeen : Prop :=
  ∀ s u : State, SameWritten s u → stepReadsWritten s = true →
    ∃ s' u', step s = .next s' ∧ step u = .next u' ∧ SameWritten s' u'

/-- The strict machine of U1 and U2 stops exactly at a read of an unwritten register, and is `step` everywhere else. -/
def Obligations.StrictMachineStopsOnUnwrittenReads : Prop :=
  ∀ s : State,
    (stepReadsWritten s = true → ∃ t, strictStep s = .next t ∧ step s = .next t) ∧
    (strictStep s = .fault .unwrittenRead ↔
      ∃ i, Completes s i ∧ ((∃ r ∈ sources i, s.regWritten r = false) ∨ (i = .vffs ∧ s.zm.written = false)))
end

