-- ==== Sys2Proof/Laws/Vec.lean ====
section
/-! SUPPORT. Laws of vector values: the lanes and the length of every way to build one. -/

namespace Sys2Proof

@[simp] theorem u8_eq_toNat (b : Byte) : b.u8 = b.toNat := rfl

/-- `byte(x)` is `x mod 256` (00_scope.md R9). -/
theorem toNat_byte (x : Int) : (byte x).toNat = (x % 256).toNat := by simp [byte, BitVec.toNat_ofInt]

end Sys2Proof

namespace Sys2Proof.Vec

open Sys2Proof

@[simp] theorem length_tab (n : Nat) (f : Nat → Byte) : (tab n f).length = n := by
  simp [tab]

@[simp] theorem lane_tab {n k : Nat} (f : Nat → Byte) (h : k < n) : lane (tab n f) k = f k := by
  simp [lane, tab, h]

theorem lane_of_length_le {x : Vec} {k : Nat} (h : x.length ≤ k) : lane x k = 0x00 := by
  simp [lane, h]

/-- Two vectors of N lanes with the same lanes are equal. -/
theorem ext_lanes {n : Nat} {x y : Vec} (hx : x.length = n) (hy : y.length = n)
    (h : ∀ k, k < n → lane x k = lane y k) : x = y := by
  apply List.ext_getElem (hx.trans hy.symm)
  intro k hk hk'
  simpa [lane, List.getD_eq_getElem, hk, hk'] using h k (hx ▸ hk)

/-- A vector is the table of its own lanes. -/
theorem tab_lane {n : Nat} {x : Vec} (hx : x.length = n) : tab n (lane x) = x :=
  ext_lanes (length_tab n _) hx fun _ h => lane_tab _ h

theorem tab_congr {n : Nat} {f g : Nat → Byte} (h : ∀ k, k < n → f k = g k) : tab n f = tab n g :=
  ext_lanes (length_tab n _) (length_tab n _) fun k hk => by
    rw [lane_tab f hk, lane_tab g hk, h k hk]

@[simp] theorem length_bcast (n : Nat) (b : Byte) : (bcast n b).length = n := length_tab n _

@[simp] theorem lane_bcast {n k : Nat} (b : Byte) (h : k < n) : lane (bcast n b) k = b := lane_tab _ h

theorem bcast_eq_replicate (n : Nat) (b : Byte) : bcast n b = List.replicate n b := by
  simp [bcast, tab]

@[simp] theorem length_lanewise1 (n : Nat) (f : Byte → Byte) (x : Vec) : (lanewise1 n f x).length = n :=
  length_tab n _

@[simp] theorem lane_lanewise1 {n k : Nat} (f : Byte → Byte) (x : Vec) (h : k < n) :
    lane (lanewise1 n f x) k = f (lane x k) := lane_tab _ h

@[simp] theorem length_lanewise2 (n : Nat) (f : Byte → Byte → Byte) (x y : Vec) :
    (lanewise2 n f x y).length = n := length_tab n _

@[simp] theorem lane_lanewise2 {n k : Nat} (f : Byte → Byte → Byte) (x y : Vec) (h : k < n) :
    lane (lanewise2 n f x y) k = f (lane x k) (lane y k) := lane_tab _ h

@[simp] theorem length_lanewise3 (n : Nat) (f : Byte → Byte → Byte → Byte) (x y z : Vec) :
    (lanewise3 n f x y z).length = n := length_tab n _

@[simp] theorem lane_lanewise3 {n k : Nat} (f : Byte → Byte → Byte → Byte) (x y z : Vec) (h : k < n) :
    lane (lanewise3 n f x y z) k = f (lane x k) (lane y k) (lane z k) := lane_tab _ h

/-! ## Images -/

@[simp] theorem length_ofImage (n : Nat) (w : BitVec (8 * n)) : (ofImage n w).length = n := length_tab n _

@[simp] theorem lane_ofImage {n k : Nat} (w : BitVec (8 * n)) (h : k < n) :
    lane (ofImage n w) k = w.extractLsb' (8 * k) 8 := lane_tab _ h

/-- Bit i of lane k is bit 8k + i of the number. -/
theorem testBit_imageNat (x : Vec) (k i : Nat) (hi : i < 8) :
    (imageNat x).testBit (8 * k + i) = (lane x k).getLsbD i := by
  induction x generalizing k with
  | nil => simp [imageNat, lane]
  | cons b x ih =>
    rw [imageNat, Nat.testBit_two_pow_mul_add _ b.isLt]
    cases k with
    | zero => simp [hi, lane, BitVec.getLsbD]
    | succ k =>
      rw [if_neg (by omega), show 8 * (k + 1) + i - 8 = 8 * k + i by omega, ih]
      simp [lane]

/-- Lane k is bits [8k+7:8k] of the image (00_scope.md R8). -/
theorem extract_image {n k : Nat} (x : Vec) (h : k < n) : (image n x).extractLsb' (8 * k) 8 = lane x k := by
  apply BitVec.eq_of_getLsbD_eq
  intro i hi
  have hw : 8 * k + i < 8 * n := by omega
  rw [BitVec.getLsbD_extractLsb', image, BitVec.getLsbD_ofNat, testBit_imageNat x k i hi]
  simp [hi, hw]

end Sys2Proof.Vec
end

