-- ==== Sys2Proof/Laws/State.lean ====
section
/-! SUPPORT. One law per field per update of the state, and the read-after-write laws of the vector registers. -/

namespace Sys2Proof.Machine.State

open Sys2Proof

/-! ## writeReg -/

@[simp] theorem lanes_writeReg (s : State) (d : VReg) (x : Vec) : (s.writeReg d x).lanes = s.lanes := rfl
@[simp] theorem v_writeReg (s : State) (d : VReg) (x : Vec) : (s.writeReg d x).v = s.v.set d ⟨x, true⟩ := rfl
@[simp] theorem zm_writeReg (s : State) (d : VReg) (x : Vec) : (s.writeReg d x).zm = s.zm := rfl
@[simp] theorem status_writeReg (s : State) (d : VReg) (x : Vec) : (s.writeReg d x).status = s.status := rfl
@[simp] theorem rsp_writeReg (s : State) (d : VReg) (x : Vec) : (s.writeReg d x).rsp = s.rsp := rfl
@[simp] theorem inFlight_writeReg (s : State) (d : VReg) (x : Vec) : (s.writeReg d x).inFlight = s.inFlight := rfl
@[simp] theorem position_writeReg (s : State) (d : VReg) (x : Vec) : (s.writeReg d x).position = s.position := rfl
@[simp] theorem pending_writeReg (s : State) (d : VReg) (x : Vec) : (s.writeReg d x).pending = s.pending := rfl
@[simp] theorem received_writeReg (s : State) (d : VReg) (x : Vec) : (s.writeReg d x).received = s.received := rfl
@[simp] theorem n_writeReg (s : State) (d : VReg) (x : Vec) : (s.writeReg d x).n = s.n := rfl
@[simp] theorem reg_writeReg_self (s : State) (d : VReg) (x : Vec) : (s.writeReg d x).reg d = x := by
  simp [reg, writeReg]
@[simp] theorem regWritten_writeReg_self (s : State) (d : VReg) (x : Vec) :
    (s.writeReg d x).regWritten d = true := by
  simp [regWritten, writeReg]
theorem slot_writeReg_ne (s : State) {d r : VReg} (x : Vec) (h : r ≠ d) : (s.writeReg d x).v[r] = s.v[r] := by
  have hne : (d : Nat) ≠ (r : Nat) := fun hh => h (Fin.ext hh.symm)
  simpa [writeReg] using Vector.getElem_set_ne d.isLt r.isLt hne
theorem reg_writeReg_ne (s : State) {d r : VReg} (x : Vec) (h : r ≠ d) : (s.writeReg d x).reg r = s.reg r := by
  simp only [reg, slot_writeReg_ne s x h]
theorem regWritten_writeReg_ne (s : State) {d r : VReg} (x : Vec) (h : r ≠ d) :
    (s.writeReg d x).regWritten r = s.regWritten r := by
  simp only [regWritten, slot_writeReg_ne s x h]

/-! ## writeZm -/

@[simp] theorem lanes_writeZm (s : State) (m : LaneMask) : (s.writeZm m).lanes = s.lanes := rfl
@[simp] theorem v_writeZm (s : State) (m : LaneMask) : (s.writeZm m).v = s.v := rfl
@[simp] theorem zm_writeZm (s : State) (m : LaneMask) : (s.writeZm m).zm = ⟨m, true⟩ := rfl
@[simp] theorem status_writeZm (s : State) (m : LaneMask) : (s.writeZm m).status = s.status := rfl
@[simp] theorem rsp_writeZm (s : State) (m : LaneMask) : (s.writeZm m).rsp = s.rsp := rfl
@[simp] theorem inFlight_writeZm (s : State) (m : LaneMask) : (s.writeZm m).inFlight = s.inFlight := rfl
@[simp] theorem position_writeZm (s : State) (m : LaneMask) : (s.writeZm m).position = s.position := rfl
@[simp] theorem pending_writeZm (s : State) (m : LaneMask) : (s.writeZm m).pending = s.pending := rfl
@[simp] theorem received_writeZm (s : State) (m : LaneMask) : (s.writeZm m).received = s.received := rfl
@[simp] theorem n_writeZm (s : State) (m : LaneMask) : (s.writeZm m).n = s.n := rfl
@[simp] theorem reg_writeZm (s : State) (m : LaneMask) (r : VReg) : (s.writeZm m).reg r = s.reg r := rfl
@[simp] theorem regWritten_writeZm (s : State) (m : LaneMask) (r : VReg) :
    (s.writeZm m).regWritten r = s.regWritten r := rfl

/-! ## raise -/

@[simp] theorem lanes_raise (s : State) (e : Event) : (s.raise e).lanes = s.lanes := by cases e <;> rfl
@[simp] theorem v_raise (s : State) (e : Event) : (s.raise e).v = s.v := by cases e <;> rfl
@[simp] theorem zm_raise (s : State) (e : Event) : (s.raise e).zm = s.zm := by cases e <;> rfl
@[simp] theorem rsp_raise (s : State) (e : Event) : (s.raise e).rsp = s.rsp := by cases e <;> rfl
@[simp] theorem inFlight_raise (s : State) (e : Event) : (s.raise e).inFlight = s.inFlight := by cases e <;> rfl
@[simp] theorem position_raise (s : State) (e : Event) : (s.raise e).position = s.position := by cases e <;> rfl
@[simp] theorem pending_raise (s : State) (e : Event) : (s.raise e).pending = s.pending := by cases e <;> rfl
@[simp] theorem received_raise (s : State) (e : Event) : (s.raise e).received = s.received := by cases e <;> rfl
@[simp] theorem status_raise_invalidCharacter (s : State) (k : Nat) :
    (s.raise (.invalidCharacter k)).status = { s.status with fail := true, lane := BitVec.ofNat 6 k } := rfl
@[simp] theorem status_raise_illegalCommand (s : State) :
    (s.raise .illegalCommand).status = { s.status with ill := true } := rfl
@[simp] theorem n_raise (s : State) (e : Event) : (s.raise e).n = s.n := by cases e <;> rfl
@[simp] theorem reg_raise (s : State) (e : Event) (r : VReg) : (s.raise e).reg r = s.reg r := by cases e <;> rfl
@[simp] theorem regWritten_raise (s : State) (e : Event) (r : VReg) :
    (s.raise e).regWritten r = s.regWritten r := by cases e <;> rfl

/-! ## pass -/

@[simp] theorem lanes_pass (s : State) : (s.pass).lanes = s.lanes := rfl
@[simp] theorem v_pass (s : State) : (s.pass).v = s.v := rfl
@[simp] theorem zm_pass (s : State) : (s.pass).zm = s.zm := rfl
@[simp] theorem status_pass (s : State) : (s.pass).status = { s.status with fail := false, lane := 0 } := rfl
@[simp] theorem rsp_pass (s : State) : (s.pass).rsp = s.rsp := rfl
@[simp] theorem inFlight_pass (s : State) : (s.pass).inFlight = s.inFlight := rfl
@[simp] theorem position_pass (s : State) : (s.pass).position = s.position := rfl
@[simp] theorem pending_pass (s : State) : (s.pass).pending = s.pending := rfl
@[simp] theorem received_pass (s : State) : (s.pass).received = s.received := rfl
@[simp] theorem n_pass (s : State) : (s.pass).n = s.n := rfl
@[simp] theorem reg_pass (s : State) (r : VReg) : (s.pass).reg r = s.reg r := rfl
@[simp] theorem regWritten_pass (s : State) (r : VReg) :
    (s.pass).regWritten r = s.regWritten r := rfl

/-! ## clearStatus -/

@[simp] theorem lanes_clearStatus (s : State) : (s.clearStatus).lanes = s.lanes := rfl
@[simp] theorem v_clearStatus (s : State) : (s.clearStatus).v = s.v := rfl
@[simp] theorem zm_clearStatus (s : State) : (s.clearStatus).zm = s.zm := rfl
@[simp] theorem status_clearStatus (s : State) : (s.clearStatus).status = { fail := false, ill := false, lane := 0 } := rfl
@[simp] theorem rsp_clearStatus (s : State) : (s.clearStatus).rsp = s.rsp := rfl
@[simp] theorem inFlight_clearStatus (s : State) : (s.clearStatus).inFlight = s.inFlight := rfl
@[simp] theorem position_clearStatus (s : State) : (s.clearStatus).position = s.position := rfl
@[simp] theorem pending_clearStatus (s : State) : (s.clearStatus).pending = s.pending := rfl
@[simp] theorem received_clearStatus (s : State) : (s.clearStatus).received = s.received := rfl
@[simp] theorem n_clearStatus (s : State) : (s.clearStatus).n = s.n := rfl
@[simp] theorem reg_clearStatus (s : State) (r : VReg) : (s.clearStatus).reg r = s.reg r := rfl
@[simp] theorem regWritten_clearStatus (s : State) (r : VReg) :
    (s.clearStatus).regWritten r = s.regWritten r := rfl

/-! ## complete -/

@[simp] theorem lanes_complete (s : State) (dout : Vec) : (s.complete dout).lanes = s.lanes := rfl
@[simp] theorem v_complete (s : State) (dout : Vec) : (s.complete dout).v = s.v := rfl
@[simp] theorem zm_complete (s : State) (dout : Vec) : (s.complete dout).zm = s.zm := rfl
@[simp] theorem status_complete (s : State) (dout : Vec) : (s.complete dout).status = s.status := rfl
@[simp] theorem rsp_complete (s : State) (dout : Vec) : (s.complete dout).rsp = some ⟨s.status.word, dout⟩ := rfl
@[simp] theorem inFlight_complete (s : State) (dout : Vec) : (s.complete dout).inFlight = none := rfl
@[simp] theorem position_complete (s : State) (dout : Vec) : (s.complete dout).position = s.position + 1 := rfl
@[simp] theorem pending_complete (s : State) (dout : Vec) : (s.complete dout).pending = s.pending := rfl
@[simp] theorem received_complete (s : State) (dout : Vec) : (s.complete dout).received = s.received := rfl
@[simp] theorem n_complete (s : State) (dout : Vec) : (s.complete dout).n = s.n := rfl
@[simp] theorem reg_complete (s : State) (dout : Vec) (r : VReg) : (s.complete dout).reg r = s.reg r := rfl
@[simp] theorem regWritten_complete (s : State) (dout : Vec) (r : VReg) :
    (s.complete dout).regWritten r = s.regWritten r := rfl

/-! ## accept -/

@[simp] theorem lanes_accept (s : State) (c : Command) : (s.accept c).lanes = s.lanes := rfl
@[simp] theorem v_accept (s : State) (c : Command) : (s.accept c).v = s.v := rfl
@[simp] theorem zm_accept (s : State) (c : Command) : (s.accept c).zm = s.zm := rfl
@[simp] theorem status_accept (s : State) (c : Command) : (s.accept c).status = s.status := rfl
@[simp] theorem rsp_accept (s : State) (c : Command) : (s.accept c).rsp = s.rsp := rfl
@[simp] theorem inFlight_accept (s : State) (c : Command) : (s.accept c).inFlight = some c := rfl
@[simp] theorem position_accept (s : State) (c : Command) : (s.accept c).position = s.position := rfl
@[simp] theorem pending_accept (s : State) (c : Command) : (s.accept c).pending = s.pending := rfl
@[simp] theorem received_accept (s : State) (c : Command) : (s.accept c).received = s.received := rfl
@[simp] theorem n_accept (s : State) (c : Command) : (s.accept c).n = s.n := rfl
@[simp] theorem reg_accept (s : State) (c : Command) (r : VReg) : (s.accept c).reg r = s.reg r := rfl
@[simp] theorem regWritten_accept (s : State) (c : Command) (r : VReg) :
    (s.accept c).regWritten r = s.regWritten r := rfl

/-! ## The command an edge offers -/

@[simp] theorem word_command (n : Nat) (e : Edge) : (e.command n).word = e.cmdWord := rfl
@[simp] theorem length_command (n : Nat) (e : Edge) : (e.command n).data.length = n := by simp [Edge.command]
@[simp] theorem lane_command {n k : Nat} (e : Edge) (h : k < n) :
    (e.command n).data.lane k = (e.bus n).extractLsb' (8 * k) 8 := by simp [Edge.command, h]

/-! ## take -/

@[simp] theorem lanes_take (s : State) (r : Response) : (s.take r).lanes = s.lanes := rfl
@[simp] theorem v_take (s : State) (r : Response) : (s.take r).v = s.v := rfl
@[simp] theorem zm_take (s : State) (r : Response) : (s.take r).zm = s.zm := rfl
@[simp] theorem status_take (s : State) (r : Response) : (s.take r).status = s.status := rfl
@[simp] theorem rsp_take (s : State) (r : Response) : (s.take r).rsp = none := rfl
@[simp] theorem inFlight_take (s : State) (r : Response) : (s.take r).inFlight = s.inFlight := rfl
@[simp] theorem position_take (s : State) (r : Response) : (s.take r).position = s.position := rfl
@[simp] theorem pending_take (s : State) (r : Response) : (s.take r).pending = s.pending := rfl
@[simp] theorem received_take (s : State) (r : Response) : (s.take r).received = s.received ++ [r] := rfl
@[simp] theorem n_take (s : State) (r : Response) : (s.take r).n = s.n := rfl
@[simp] theorem reg_take (s : State) (r : Response) (q : VReg) : (s.take r).reg q = s.reg q := rfl
@[simp] theorem regWritten_take (s : State) (r : Response) (q : VReg) :
    (s.take r).regWritten q = s.regWritten q := rfl

/-! ## afterReset -/

@[simp] theorem afterReset_eq (s : State) : s.afterReset = { State.resetOf s.lanes with pending := s.pending } := rfl

@[simp] theorem reg_resetOf (c : LaneCount) (r : VReg) : (State.resetOf c).reg r = Vec.bcast c.count 0x00 := by
  simp [reg, resetOf]
@[simp] theorem regWritten_resetOf (c : LaneCount) (r : VReg) : (State.resetOf c).regWritten r = false := by
  simp [regWritten, resetOf]

/-- Two register files that agree slot by slot are equal. -/
theorem v_ext {s t : State} (h : ∀ r, s.reg r = t.reg r) (hw : ∀ r, s.regWritten r = t.regWritten r) : s.v = t.v := by
  apply Vector.ext
  intro k hk
  have h1 := h ⟨k, hk⟩
  have h2 := hw ⟨k, hk⟩
  simp only [reg, regWritten, Fin.getElem_fin] at h1 h2
  cases ha : s.v[k]
  cases hb : t.v[k]
  simp_all

end Sys2Proof.Machine.State
end

