-- ==== Sys2Proof/Laws/Flags.lean ====
section
/-! SUPPORT. Laws of the zero mask, of the first set bit and of the reporter outcome. -/

namespace Sys2Proof

@[simp] theorem length_zmask (n : Nat) (x : Vec) : (zmask n x).length = n := by simp [zmask]

theorem getElem?_zmask {n k : Nat} (x : Vec) (h : k < n) : (zmask n x)[k]? = some (x.lane k == 0x00) := by
  simp [zmask, h]

theorem nonzero_iff (z : LaneMask) : LaneMask.nonzero z = true ↔ true ∈ z := by
  simp [LaneMask.nonzero]

/-- `ffs` finds a set bit, and no lower bit is set (43_invalid_detector.md R181). -/
theorem ffs_spec : ∀ {z : LaneMask}, LaneMask.nonzero z = true →
    z[ffs z]? = some true ∧ ∀ j, j < ffs z → z[j]? = some false
  | [], h => by simp [LaneMask.nonzero] at h
  | true :: z, _ => by simp [ffs]
  | false :: z, h => by
    have hz : LaneMask.nonzero z = true := by simpa [LaneMask.nonzero] using h
    obtain ⟨h1, h2⟩ := ffs_spec hz
    refine ⟨by simpa [ffs] using h1, fun j hj => ?_⟩
    cases j with
    | zero => simp
    | succ j => simpa using h2 j (by simpa [ffs] using hj)

theorem ffs_lt_length {z : LaneMask} (h : LaneMask.nonzero z = true) : ffs z < z.length :=
  (List.getElem?_eq_some_iff.1 (ffs_spec h).1).1

theorem zmask_nonzero_iff (n : Nat) (x : Vec) :
    LaneMask.nonzero (zmask n x) = true ↔ ∃ k, k < n ∧ x.lane k = 0x00 := by
  simp [nonzero_iff, zmask]

end Sys2Proof

namespace Sys2Proof.Machine.State

open Sys2Proof

/-- Everything `outcome` can do (R182). -/
theorem outcome_cases (z : LaneMask) (s : State) :
    (LaneMask.nonzero z = true ∧ s.outcome z = s.raise (.invalidCharacter (ffs z))) ∨
      (LaneMask.nonzero z = false ∧ s.outcome z = s.pass) := by
  cases h : LaneMask.nonzero z <;> simp [outcome, h]

@[simp] theorem fail_outcome (z : LaneMask) (s : State) : (s.outcome z).status.fail = LaneMask.nonzero z := by
  obtain ⟨h, e⟩ | ⟨h, e⟩ := outcome_cases z s <;> simp [h, e]
@[simp] theorem ill_outcome (z : LaneMask) (s : State) : (s.outcome z).status.ill = s.status.ill := by
  obtain ⟨_, e⟩ | ⟨_, e⟩ := outcome_cases z s <;> simp [e]
@[simp] theorem lanes_outcome (z : LaneMask) (s : State) : (s.outcome z).lanes = s.lanes := by
  obtain ⟨_, e⟩ | ⟨_, e⟩ := outcome_cases z s <;> simp [e]
@[simp] theorem v_outcome (z : LaneMask) (s : State) : (s.outcome z).v = s.v := by
  obtain ⟨_, e⟩ | ⟨_, e⟩ := outcome_cases z s <;> simp [e]
@[simp] theorem zm_outcome (z : LaneMask) (s : State) : (s.outcome z).zm = s.zm := by
  obtain ⟨_, e⟩ | ⟨_, e⟩ := outcome_cases z s <;> simp [e]
@[simp] theorem rsp_outcome (z : LaneMask) (s : State) : (s.outcome z).rsp = s.rsp := by
  obtain ⟨_, e⟩ | ⟨_, e⟩ := outcome_cases z s <;> simp [e]
@[simp] theorem inFlight_outcome (z : LaneMask) (s : State) : (s.outcome z).inFlight = s.inFlight := by
  obtain ⟨_, e⟩ | ⟨_, e⟩ := outcome_cases z s <;> simp [e]
@[simp] theorem position_outcome (z : LaneMask) (s : State) : (s.outcome z).position = s.position := by
  obtain ⟨_, e⟩ | ⟨_, e⟩ := outcome_cases z s <;> simp [e]
@[simp] theorem pending_outcome (z : LaneMask) (s : State) : (s.outcome z).pending = s.pending := by
  obtain ⟨_, e⟩ | ⟨_, e⟩ := outcome_cases z s <;> simp [e]
@[simp] theorem received_outcome (z : LaneMask) (s : State) : (s.outcome z).received = s.received := by
  obtain ⟨_, e⟩ | ⟨_, e⟩ := outcome_cases z s <;> simp [e]
@[simp] theorem n_outcome (z : LaneMask) (s : State) : (s.outcome z).n = s.n := by
  obtain ⟨_, e⟩ | ⟨_, e⟩ := outcome_cases z s <;> simp [e]
@[simp] theorem reg_outcome (z : LaneMask) (s : State) (r : VReg) : (s.outcome z).reg r = s.reg r := by
  obtain ⟨_, e⟩ | ⟨_, e⟩ := outcome_cases z s <;> simp [e]
@[simp] theorem regWritten_outcome (z : LaneMask) (s : State) (r : VReg) :
    (s.outcome z).regWritten r = s.regWritten r := by
  obtain ⟨_, e⟩ | ⟨_, e⟩ := outcome_cases z s <;> simp [e]

/-- `report` is the write of ZM and then the outcome (R182). -/
theorem report_eq (x : Vec) (s : State) :
    s.report x = (s.writeZm (zmask s.n x)).outcome (zmask s.n x) := rfl

/-- What `report` does to the state is what it does to ZM and STATUS (R182). -/
theorem zm_report (x : Vec) (s : State) : (s.report x).zm = ⟨zmask s.n x, true⟩ := by simp [report_eq]

theorem fail_report (x : Vec) (s : State) :
    (s.report x).status.fail = true ↔ ∃ k, k < s.n ∧ x.lane k = 0x00 := by
  simp [report_eq, zmask_nonzero_iff]

end Sys2Proof.Machine.State
end

