-- ==== Sys2Proof/Laws/Ops.lean ====
section
/-! SUPPORT. What each shared form of a meaning answers. -/

namespace Sys2Proof.Machine

open Sys2Proof

theorem LaneCount_count_le (c : LaneCount) : c.count ≤ 64 := by cases c <;> decide

theorem State.n_le (s : State) : s.n ≤ 64 := LaneCount_count_le s.lanes

theorem State.n_pos (s : State) : 16 ≤ s.n := by unfold State.n; cases s.lanes <;> decide

/-- `finish` always answers a next state (44_host_port.md R203). -/
theorem finish_eq (s : State) : finish s = .next (s.complete (Vec.bcast s.n 0x00)) := rfl

/-- An illegal word completes too (30_encoding.md R77). -/
theorem illegalCommand_eq (s : State) :
    illegalCommand s = .next ((s.raise .illegalCommand).complete (Vec.bcast s.n 0x00)) := by
  simp [illegalCommand, finish_eq]

theorem writeAndFinish_eq (d : VReg) (x : Vec) (s : State) :
    writeAndFinish d x s = .next ((s.writeReg d x).complete (Vec.bcast s.n 0x00)) := by
  simp [writeAndFinish, finish_eq]

/-- Everything `reportThenWrite` can do: it reports, and writes only when no lane of `sh` is 0x00 (40_classifier.md
R113, R114). -/
theorem reportThenWrite_cases (d : VReg) (sh x : Vec) (s : State) :
    ((∃ k, k < s.n ∧ sh.lane k = 0x00) ∧ reportThenWrite d sh x s = s.report sh) ∨
      ((∀ k, k < s.n → sh.lane k ≠ 0x00) ∧ reportThenWrite d sh x s = (s.report sh).writeReg d x) := by
  by_cases h : ∃ k, k < s.n ∧ sh.lane k = 0x00
  · exact .inl ⟨h, by simp [reportThenWrite, (State.fail_report sh s).2 h]⟩
  · have hf : (s.report sh).status.fail = false := by
      simpa using fun hh => h ((State.fail_report sh s).1 hh)
    refine .inr ⟨fun k hk h0 => h ⟨k, hk, h0⟩, by simp [reportThenWrite, hf]⟩

end Sys2Proof.Machine
end

