-- ==== Sys2Proof/Laws/Step.lean ====
section
/-! SUPPORT. Everything an edge and a step can do. -/

namespace Sys2Proof.Machine

open Sys2Proof

/-- Everything `edgeEvent` can answer, with its guards. -/
theorem State.edgeEvent_cases (e : Edge) (s : State) :
    (e.rst = true ∧ s.edgeEvent e = .reset) ∨
    (∃ r, e.rst = false ∧ s.rsp = some r ∧ e.rspReady = true ∧ s.edgeEvent e = .taken r) ∨
    (∃ c, e.rst = false ∧ s.rsp = none ∧ s.inFlight = some c ∧ e.done = true ∧ s.edgeEvent e = .completed c) ∨
    (e.rst = false ∧ s.rsp = none ∧ s.inFlight = none ∧ e.cmdValid = true ∧
      s.edgeEvent e = .accepted (e.command s.n)) ∨
    (e.rst = false ∧ s.edgeEvent e = .quiet) := by
  unfold State.edgeEvent
  cases hr : e.rst
  · cases hp : s.rsp with
    | some r => cases hy : e.rspReady <;> simp
    | none =>
      cases hf : s.inFlight with
      | some c => cases hd : e.done <;> simp
      | none => cases hv : e.cmdValid <;> simp
  · simp

@[simp] theorem State.edgeEvent_pending (e : Edge) (s : State) (p : List Edge) :
    ({ s with pending := p } : State).edgeEvent e = s.edgeEvent e := rfl

/-- Everything a step can do when it answers `t`: with no edge left nothing; else one of the five events. -/
theorem step_cases {s t : State} (h : step s = .next t) :
    (s.pending = [] ∧ t = s) ∨
    ∃ e rest, s.pending = e :: rest ∧
      ((e.rst = true ∧ t = ({ s with pending := rest } : State).afterReset) ∨
       (∃ r, e.rst = false ∧ s.rsp = some r ∧ e.rspReady = true ∧
          t = ({ s with pending := rest } : State).take r) ∨
       (∃ c, e.rst = false ∧ s.rsp = none ∧ s.inFlight = some c ∧ e.done = true ∧
          runWord c.word { s with pending := rest } = .next t) ∨
       (e.rst = false ∧ s.rsp = none ∧ s.inFlight = none ∧ e.cmdValid = true ∧
          t = ({ s with pending := rest } : State).accept (e.command s.n)) ∨
       (e.rst = false ∧ s.edgeEvent e = .quiet ∧ t = { s with pending := rest })) := by
  unfold step at h
  cases hp : s.pending with
  | nil => exact .inl ⟨rfl, by simpa [hp, eq_comm] using h⟩
  | cons e rest =>
    refine .inr ⟨e, rest, rfl, ?_⟩
    simp only [hp] at h
    unfold stepEdge at h
    rw [State.edgeEvent_pending] at h
    obtain ⟨hr, he⟩ | ⟨r, hr, hs, hy, he⟩ | ⟨c, hr, hs, hf, hd, he⟩ | ⟨hr, hs, hf, hv, he⟩ | ⟨hr, he⟩ :=
      State.edgeEvent_cases e s
    · rw [he] at h
      exact .inl ⟨hr, (Host.Outcome.next.inj h).symm⟩
    · rw [he] at h
      exact .inr (.inl ⟨r, hr, hs, hy, (Host.Outcome.next.inj h).symm⟩)
    · rw [he] at h
      exact .inr (.inr (.inl ⟨c, hr, hs, hf, hd, h⟩))
    · rw [he] at h
      exact .inr (.inr (.inr (.inl ⟨hr, hs, hf, hv, (Host.Outcome.next.inj h).symm⟩)))
    · rw [he] at h
      exact .inr (.inr (.inr (.inr ⟨hr, he, (Host.Outcome.next.inj h).symm⟩)))

/-- Running a word runs its command, or raises IllegalCommand. -/
theorem runWord_ok {w : Word} {i : Instr} (h : decode w = .ok i) (s : State) : runWord w s = exec i s := by
  simp [runWord, h]

theorem runWord_error {w : Word} {e : Illegal} (h : decode w = .error e) (s : State) :
    runWord w s = illegalCommand s := by
  simp [runWord, h]

end Sys2Proof.Machine
end

