-- ==== Sys2Proof/Laws/Exec.lean ====
section
/-! SUPPORT. Every command in one form: its own effect on V, ZM and STATUS, then completion with its DOUT. -/

namespace Sys2Proof.Machine

open Sys2Proof

/-- The effect of a command on V, ZM and STATUS, before it completes. -/
def effect (i : Instr) (s : State) : State :=
  match i with
  | .nop | .vout _ => s
  | .vin d => s.writeReg d (Vec.lanewise1 s.n id s.din)
  | .vbcast d imm => s.writeReg d (Vec.bcast s.n imm)
  | .vcmpeq d a imm => s.writeReg d (Vec.lanewise1 s.n (laneEq imm) (s.reg a))
  | .vcmpge d a imm => s.writeReg d (Vec.lanewise1 s.n (laneGe imm) (s.reg a))
  | .vcmple d a imm => s.writeReg d (Vec.lanewise1 s.n (laneLe imm) (s.reg a))
  | .vcmpgt d a imm => s.writeReg d (Vec.lanewise1 s.n (laneGt imm) (s.reg a))
  | .vand d a b => s.writeReg d (Vec.lanewise2 s.n laneAnd (s.reg a) (s.reg b))
  | .vor d a b => s.writeReg d (Vec.lanewise2 s.n laneOr (s.reg a) (s.reg b))
  | .vadd d a b => s.writeReg d (Vec.lanewise2 s.n laneAdd (s.reg a) (s.reg b))
  | .vsub d a b => s.writeReg d (Vec.lanewise2 s.n laneSub (s.reg a) (s.reg b))
  | .vblend d m a b => s.writeReg d (Vec.lanewise3 s.n laneBlend (s.reg m) (s.reg a) (s.reg b))
  | .vldpt d => s.writeReg d (Vec.tab s.n fun k => if k < 16 then ptab.lane k else 0x00)
  | .vshuf d t ix => s.writeReg d (Vec.lanewise1 s.n (laneLookup (s.reg t)) (s.reg ix))
  | .vzmask a => s.writeZm (zmask s.n (s.reg a))
  | .vffs => s.outcome s.zm.value
  | .vchk a => s.report (s.reg a)
  | .clrst => s.clearStatus
  | .vcls d a var => s.writeReg d (datapath var s.n (s.reg a))
  | .vclsh d a var => reportThenWrite d (datapath var s.n (s.reg a)) (datapath var s.n (s.reg a)) s
  | .vdec d a var =>
    reportThenWrite d (datapath var s.n (s.reg a)) (applyShift s.n (s.reg a) (datapath var s.n (s.reg a))) s

/-- DOUT of a command (44_host_port.md R204). -/
def doutOf (i : Instr) (s : State) : Vec :=
  match i with
  | .vout a => s.reg a
  | _ => Vec.bcast s.n 0x00

/-- What an effect leaves alone: everything but V, ZM and STATUS. -/
structure SameShell (s t : State) : Prop where
  lanes : t.lanes = s.lanes
  rsp : t.rsp = s.rsp
  inFlight : t.inFlight = s.inFlight
  position : t.position = s.position
  pending : t.pending = s.pending
  received : t.received = s.received

theorem SameShell.n {s t : State} (h : SameShell s t) : t.n = s.n := by simp [State.n, h.lanes]

theorem sameShell_reportThenWrite (d : VReg) (sh x : Vec) (s : State) :
    SameShell s (reportThenWrite d sh x s) := by
  obtain ⟨-, e⟩ | ⟨-, e⟩ := reportThenWrite_cases d sh x s <;>
    constructor <;> simp [e, State.report_eq]

/-- Every effect keeps the shell of the state. -/
theorem sameShell_effect (i : Instr) (s : State) : SameShell s (effect i s) := by
  cases i
  case vclsh => exact sameShell_reportThenWrite _ _ _ _
  case vdec => exact sameShell_reportThenWrite _ _ _ _
  all_goals constructor <;> simp [effect, State.report_eq]

/-- Every command completes: its effect, then its response (44_host_port.md R203). -/
theorem exec_eq (i : Instr) (s : State) : exec i s = .next ((effect i s).complete (doutOf i s)) := by
  have hn := (sameShell_effect i s).n
  cases i <;> simp only [exec, doutOf]
  case vout a => rfl
  all_goals rw [← hn]; rfl

end Sys2Proof.Machine
end

