-- ==== Sys2Proof/Laws/Fields.lean ====
section
/-! SUPPORT. The fields of a word and the word of its fields: no bit is dropped (30_encoding.md R71). -/

namespace Sys2Proof.Fields

open Sys2Proof

theorem ofWord_toWord (f : Fields) : ofWord f.toWord = f := by
  obtain ⟨op, vd, va, vb, vm, rsv, var, imm⟩ := f
  simp only [ofWord, toWord]
  congr 1 <;>
    (apply BitVec.eq_of_getLsbD_eq
     intro i hi
     simp only [BitVec.getLsbD_append, BitVec.getLsbD_extractLsb']
     interval_cases i <;> rfl)

theorem toWord_ofWord (w : Word) : (ofWord w).toWord = w := by
  apply BitVec.eq_of_getLsbD_eq
  intro i hi
  simp only [ofWord, toWord, BitVec.getLsbD_append, BitVec.getLsbD_extractLsb']
  interval_cases i <;> rfl

end Sys2Proof.Fields
end

