-- ==== Sys2Proof/Laws/PerInstr.lean ====
section
/-! SUPPORT. A law of every command as a term: the fields of its encoding decode to it (30_encoding.md R72, R77). The
family's lemmas, one per constructor. -/

namespace Sys2Proof.Laws.FieldsRoundTrip

open Sys2Proof

/-- The fields of a command's encoding decode to the command. -/
def Statement (i : Instr) : Prop := i.fields.decode = .ok i

theorem nop : Statement .nop := rfl
theorem vin (d : VReg) : Statement (.vin d) := rfl
theorem vout (a : VReg) : Statement (.vout a) := rfl
theorem vbcast (d : VReg) (imm : Byte) : Statement (.vbcast d imm) := rfl
theorem vcmpeq (d a : VReg) (imm : Byte) : Statement (.vcmpeq d a imm) := rfl
theorem vcmpge (d a : VReg) (imm : Byte) : Statement (.vcmpge d a imm) := rfl
theorem vcmple (d a : VReg) (imm : Byte) : Statement (.vcmple d a imm) := rfl
theorem vcmpgt (d a : VReg) (imm : Byte) : Statement (.vcmpgt d a imm) := rfl
theorem vand (d a b : VReg) : Statement (.vand d a b) := rfl
theorem vor (d a b : VReg) : Statement (.vor d a b) := rfl
theorem vadd (d a b : VReg) : Statement (.vadd d a b) := rfl
theorem vsub (d a b : VReg) : Statement (.vsub d a b) := rfl
theorem vblend (d m a b : VReg) : Statement (.vblend d m a b) := rfl
theorem vldpt (d : VReg) : Statement (.vldpt d) := rfl
theorem vshuf (d t ix : VReg) : Statement (.vshuf d t ix) := rfl
theorem vzmask (a : VReg) : Statement (.vzmask a) := rfl
theorem vffs : Statement .vffs := rfl
theorem vchk (a : VReg) : Statement (.vchk a) := rfl
theorem clrst : Statement .clrst := rfl
theorem vcls (d a : VReg) (var : Variant) : Statement (.vcls d a var) := by cases var <;> rfl
theorem vclsh (d a : VReg) (var : Variant) : Statement (.vclsh d a var) := by cases var <;> rfl
theorem vdec (d a : VReg) (var : Variant) : Statement (.vdec d a var) := by cases var <;> rfl

end Sys2Proof.Laws.FieldsRoundTrip
end

