-- ==== Sys2Proof/Tests/Slice0.lean ====
section
/-! SUPPORT. Tests of the model: ill-formed terms and words that the checks refuse, words written out from the spec's
encodings, one step of each command on vectors of spec/ (41 to 44 and 95_test_vectors.md), and for every obligation
with hypotheses a witness that meets them all. The expected values are the spec's. -/

namespace Sys2Proof.Tests

open Sys2Proof Sys2Proof.Machine Sys2Proof.Safety

/-! ## Ill-formed lines of assembly: one for each check (R81) -/

theorem test_wf_accepts : AsmLine.wf ⟨.cmd .vbcast, [.reg 7, .imm (-128)]⟩ = true := by decide
theorem test_wf_register_out_of_range : AsmLine.wf ⟨.cmd .vadd, [.reg 1, .reg 8, .reg 0]⟩ = false := by decide
theorem test_wf_immediate_too_large : AsmLine.wf ⟨.cmd .vbcast, [.reg 1, .imm 256]⟩ = false := by decide
theorem test_wf_immediate_too_small : AsmLine.wf ⟨.cmd .vbcast, [.reg 1, .imm (-129)]⟩ = false := by decide
theorem test_wf_operand_missing : AsmLine.wf ⟨.cmd .vblend, [.reg 7, .reg 1, .reg 2]⟩ = false := by decide
theorem test_wf_operand_of_wrong_kind : AsmLine.wf ⟨.cmd .vcls, [.reg 1, .reg 0, .imm 2]⟩ = false := by decide
theorem test_wf_pseudo_operand_missing : AsmLine.wf ⟨.vmov, [.reg 1]⟩ = false := by decide
theorem test_assembler_refuses_ill_formed : Assembler.assemble "VCMPEQ V1, V0, -129".toList = .bad := by decide

/-! ## Illegal words (95_test_vectors.md 2.6), each by the reason it is given there -/

theorem test_illegal_unassigned :
    decode 0x1C000000 = .error .unassignedOpcode ∧ decode 0xFC000000 = .error .unassignedOpcode ∧
    decode 0xFFFFFFFF = .error .unassignedOpcode := by decide
theorem test_illegal_nonzero_unused :
    decode 0x00000001 = .error .nonzeroUnusedField ∧ decode 0x04000001 = .error .nonzeroUnusedField ∧
    decode 0x0C100000 = .error .nonzeroUnusedField ∧ decode 0x40940400 = .error .nonzeroUnusedField ∧
    decode 0x53AE6000 = .error .nonzeroUnusedField ∧ decode 0x84000001 = .error .nonzeroUnusedField := by decide
theorem test_illegal_reserved_variant : decode 0xA0800300 = .error .reservedVariant := by decide

/-! ## Decoding words written out field by field from R71, R72 and R76: `oooooo ddd aaa bbb mmm 0000 vv iiiiiiii` -/

theorem test_decode_nop : decode 0b000000_000_000_000_000_0000_00_00000000 = .ok .nop := by decide
theorem test_decode_vin : decode 0b000001_101_000_000_000_0000_00_00000000 = .ok (.vin 5) := by decide
theorem test_decode_vout : decode 0b000010_000_110_000_000_0000_00_00000000 = .ok (.vout 6) := by decide
theorem test_decode_vbcast : decode 0b000011_010_000_000_000_0000_00_10111111 = .ok (.vbcast 2 0xBF) := by decide
theorem test_decode_vcmpeq : decode 0b001000_001_000_000_000_0000_00_00101011 = .ok (.vcmpeq 1 0 43) := by decide
theorem test_decode_vcmpge : decode 0b001001_001_100_000_000_0000_00_01000001 = .ok (.vcmpge 1 4 65) := by decide
theorem test_decode_vcmple : decode 0b001010_010_000_000_000_0000_00_01011010 = .ok (.vcmple 2 0 90) := by decide
theorem test_decode_vcmpgt : decode 0b001011_100_111_000_000_0000_00_01111010 = .ok (.vcmpgt 4 7 122) := by decide
theorem test_decode_vand : decode 0b010000_011_001_010_000_0000_00_00000000 = .ok (.vand 3 1 2) := by decide
theorem test_decode_vor : decode 0b010001_101_011_100_000_0000_00_00000000 = .ok (.vor 5 3 4) := by decide
theorem test_decode_vadd : decode 0b010010_001_110_111_000_0000_00_00000000 = .ok (.vadd 1 6 7) := by decide
theorem test_decode_vsub : decode 0b010011_010_110_101_000_0000_00_00000000 = .ok (.vsub 2 6 5) := by decide
theorem test_decode_vblend : decode 0b010100_111_010_110_001_0000_00_00000000 = .ok (.vblend 7 1 2 6) := by decide
theorem test_decode_vldpt : decode 0b011000_010_000_000_000_0000_00_00000000 = .ok (.vldpt 2) := by decide
theorem test_decode_vshuf : decode 0b011001_100_010_011_000_0000_00_00000000 = .ok (.vshuf 4 2 3) := by decide
theorem test_decode_vzmask : decode 0b100000_000_111_000_000_0000_00_00000000 = .ok (.vzmask 7) := by decide
theorem test_decode_vffs : decode 0b100001_000_000_000_000_0000_00_00000000 = .ok .vffs := by decide
theorem test_decode_vchk : decode 0b100010_000_011_000_000_0000_00_00000000 = .ok (.vchk 3) := by decide
theorem test_decode_clrst : decode 0b100011_000_000_000_000_0000_00_00000000 = .ok .clrst := by decide
theorem test_decode_vcls : decode 0b101000_010_001_000_000_0000_01_00000000 = .ok (.vcls 2 1 .blend) := by decide
theorem test_decode_vclsh : decode 0b101001_001_000_000_000_0000_00_00000000 = .ok (.vclsh 1 0 .mask) := by decide
theorem test_decode_vdec : decode 0b101010_110_101_000_000_0000_10_00000000 = .ok (.vdec 6 5 .perm) := by decide

/-! ## One step of each command -/

/-- A state of 16 lanes after reset with these registers written. -/
def withRegs (rs : List (VReg × Vec)) : State :=
  rs.foldl (fun s r => s.writeReg r.1 r.2) State.reset

/-- The state one step after this word is placed, for a word that steps to a next state. -/
def after (w : Nat) (s : State) : Option State :=
  match step (s.withFetchWord 32 w) with
  | .next t => some t
  | .fault _ => none
  | .refused _ => none

/-- A register after the word. -/
def regAfter (w : Nat) (r : VReg) (s : State) : Option Vec := (after w s).map fun t => t.reg r

/-- STATUS after the word. -/
def statusAfter (w : Nat) (s : State) : Option Word := (after w s).map fun t => t.status.word

/-- ZM after the word, as the numbers of its set bits. -/
def zmAfter (w : Nat) (s : State) : Option (List Nat) :=
  (after w s).map fun t => (List.range t.n).filter fun k => t.zm.value.getD k false

/-- The source of the compare vectors of 95_test_vectors.md 2.2. -/
def edges4 : Vec := [0x00, 0xFF, 0x80, 0x7F] ++ List.replicate 12 0x00

/-- The batch of 95_test_vectors.md P1. -/
def batch1 : Vec := [0x41, 0x7A, 0x30, 0x39, 0x2B, 0x2F, 0x48, 0x65, 0x6C, 0x6C, 0x6F, 0x57, 0x6F, 0x72, 0x6C, 0x64]

/-- The batch of P2, invalid in lanes 3 and 7. -/
def batch2 : Vec := [0x41, 0x42, 0x43, 0x40, 0x45, 0x46, 0x47, 0x5B, 0x49, 0x4A, 0x4B, 0x4C, 0x4D, 0x4E, 0x4F, 0x50]

/-- The decode of `batch1` (P1). -/
def decoded1 : Vec := [0x00, 0x33, 0x34, 0x3D, 0x3E, 0x3F, 0x07, 0x1E, 0x25, 0x25, 0x28, 0x16, 0x28, 0x2B, 0x25, 0x1D]

/-- The payload 00 01 ... 0F of 95_test_vectors.md 2.5. -/
def upward : Vec := [0, 1, 2, 3, 4, 5, 6, 7, 8, 9, 10, 11, 12, 13, 14, 15]

/-- 95 2.5: NOP "responds with the current STATUS". -/
theorem test_nop_responds :
    (after 0x00000000 ((withRegs []).raise (.invalidCharacter 3))).map State.rsp =
      some (some ⟨0x00000301, List.replicate 16 0x00⟩) := by decide

/-- 95 2.5: `VIN V0` with byte k = k. -/
theorem test_vin_takes_the_payload :
    (match step { State.reset.accept ⟨0x04000000, upward⟩ with pending := [Edge.complete] } with
      | .next t => decide (t.reg 0 = upward)
      | .fault _ => false
      | .refused _ => false) = true := by decide

/-- 95 2.5: on `cmd_data`, byte k = k. -/
theorem test_accept_unpacks_the_bus :
    (State.resetOf .n16).edgeEvent { Edge.idle with
      cmdValid := true, cmdWord := 0x04000000, cmdData := 0x0F0E0D0C0B0A09080706050403020100 } =
      .accepted ⟨0x04000000, upward⟩ := by decide

/-- P1 command 28: the batch's first byte is the bus's least significant one (R52). -/
theorem test_vout_packs_the_bus :
    (after 0x08600000 (withRegs [(6, decoded1)])).map (fun t => t.rspData.map BitVec.toNat) =
      some (some 0x1D252B28162825251E073F3E3D343300) := by decide

/-- R207, P1 command 28. -/
theorem test_vout_returns_the_register :
    (after 0x08600000 (withRegs [(6, decoded1)])).map State.rsp = some (some ⟨0x00000000, decoded1⟩) := by decide

/-- 95 2.2. -/
theorem test_vbcast : regAfter 0x0D80007E 3 (withRegs []) = some (List.replicate 16 0x7E) := by decide

/-- 95 2.2: equality at 128. -/
theorem test_vcmpeq : regAfter 0x20800080 1 (withRegs [(0, edges4)]) =
    some ([0x00, 0x00, 0xFF, 0x00] ++ List.replicate 12 0x00) := by decide

/-- 95 2.2: always true. -/
theorem test_vcmpge_zero : regAfter 0x24800000 1 (withRegs [(0, edges4)]) = some (List.replicate 16 0xFF) := by decide

/-- 95 2.2: unsigned. -/
theorem test_vcmple_unsigned : regAfter 0x2880007F 1 (withRegs [(0, edges4)]) =
    some ([0xFF, 0x00, 0x00, 0xFF] ++ List.replicate 12 0xFF) := by decide

/-- 95 2.2: unsigned. -/
theorem test_vcmpgt_unsigned : regAfter 0x2C80007F 1 (withRegs [(0, edges4)]) =
    some ([0x00, 0xFF, 0xFF, 0x00] ++ List.replicate 12 0x00) := by decide

/-- 95 2.2: always false. -/
theorem test_vcmpgt_never : regAfter 0x2C8000FF 1 (withRegs [(0, edges4)]) = some (List.replicate 16 0x00) := by decide

/-- P1 commands 3 and 5: a mask ANDed with a constant, destination a source. -/
theorem test_vand_in_place : regAfter 0x40940000 1 (withRegs [(1, edges4), (2, List.replicate 16 0xBF)]) =
    some ([0x00, 0xBF, 0x80, 0x3F] ++ List.replicate 12 0x00) := by decide

/-- P1 command 11: OR of disjoint lanes. -/
theorem test_vor_in_place : regAfter 0x47F20000 7
    (withRegs [(7, [0xBF, 0x00] ++ List.replicate 14 0x00), (1, [0x00, 0xB9] ++ List.replicate 14 0x04)]) =
    some ([0xBF, 0xB9] ++ List.replicate 14 0x04) := by decide

/-- The sources of the wrap vectors of 95 2.2. -/
def wrapRegs : State :=
  withRegs [(1, [0xFF, 0x00, 0x80, 0x7F] ++ List.replicate 12 0x00),
    (2, [0x01, 0x01, 0x80, 0x80] ++ List.replicate 12 0x00)]

/-- 95 2.2: wrap modulo 256. -/
theorem test_vadd_wraps : regAfter 0x49940000 3 wrapRegs =
    some ([0x00, 0x01, 0x00, 0xFF] ++ List.replicate 12 0x00) := by decide

/-- 95 2.2: borrow wraps. -/
theorem test_vsub_wraps : regAfter 0x4D940000 3 wrapRegs =
    some ([0xFE, 0xFF, 0x00, 0xFF] ++ List.replicate 12 0x00) := by decide

/-- 95 2.2: any non-zero selector picks va. -/
theorem test_vblend : regAfter 0x52264000 4
    (withRegs [(1, [0x00, 0x01, 0x80, 0xFF] ++ List.replicate 12 0x00), (2, List.replicate 16 0xAA),
      (3, List.replicate 16 0x55)]) = some ([0x55, 0xAA, 0xAA, 0xAA] ++ List.replicate 12 0x55) := by decide

/-- 95 2.2: vd = vm = vb, sources read first. -/
theorem test_vblend_in_place : regAfter 0x50A24000 1
    (withRegs [(1, [0x00, 0x01, 0x80, 0xFF] ++ List.replicate 12 0x00), (2, List.replicate 16 0xAA)]) =
    some ([0x00, 0xAA, 0xAA, 0xAA] ++ List.replicate 12 0x00) := by decide

/-- 95 2.3, with N = 32: the lanes above 15 are 00. -/
theorem test_vldpt_32_lanes : regAfter 0x61000000 2 (State.resetOf .n32) =
    some ([0x00, 0x13, 0x00, 0x10, 0x04, 0x00, 0xBF, 0x00, 0xB9] ++ List.replicate 23 0x00) := by decide

/-- 95 2.3: indices of 16 and more give 00. -/
theorem test_vshuf_high_indices : regAfter 0x67560000 6
    (withRegs [(5, (List.range 16).map fun k => BitVec.ofNat 8 (0x40 + k)),
      (3, [0, 1, 2, 3, 4, 5, 6, 7, 8, 9, 10, 15, 16, 0x7F, 0x80, 0xFF])]) =
    some [0x40, 0x41, 0x42, 0x43, 0x44, 0x45, 0x46, 0x47, 0x48, 0x49, 0x4A, 0x4F, 0x00, 0x00, 0x00, 0x00] := by decide

/-- 95 2.3, with N = 32: only lanes 0 to 15 of the table are looked up. -/
theorem test_vshuf_32_lanes : regAfter 0x66260000 4
    (((State.resetOf .n32).writeReg 2 (List.replicate 32 0x5A)).writeReg 3
      ((List.range 32).map fun k => BitVec.ofNat 8 k)) =
    some (List.replicate 16 0x5A ++ List.replicate 16 0x00) := by decide

/-- Zero in lanes 3 and 7, as in 95 2.4. -/
def zeros37 : Vec := [1, 1, 1, 0, 1, 1, 1, 0, 1, 1, 1, 1, 1, 1, 1, 1]

/-- R183: ZM, and STATUS unchanged. -/
theorem test_vzmask : zmAfter 0x80000000 (withRegs [(0, zeros37)]) = some [3, 7] ∧
    statusAfter 0x80000000 (withRegs [(0, zeros37)]) = some 0x00000000 := by decide

/-- 95 2.4: ZM = 0x8000. -/
theorem test_vffs_last_lane :
    statusAfter 0x84000000 ((withRegs []).writeZm (List.replicate 15 false ++ [true])) = some 0x00000F01 := by decide

/-- 95 2.4: ZM = 0 overwrites FAIL and LANE. -/
theorem test_vffs_passes :
    statusAfter 0x84000000 (((withRegs []).raise (.invalidCharacter 3)).writeZm (List.replicate 16 false)) =
      some 0x00000000 := by decide

/-- 95 1.5, 2.4: the lowest lane. -/
theorem test_vchk_lowest_lane : statusAfter 0x88000000 (withRegs [(0, zeros37)]) = some 0x00000301 ∧
    zmAfter 0x88000000 (withRegs [(0, zeros37)]) = some [3, 7] := by decide

/-- 95 2.4: ILL stays while FAIL = 0 is written. -/
theorem test_vchk_keeps_ill :
    statusAfter 0x88000000 ((withRegs [(0, List.replicate 16 0xBF)]).raise .illegalCommand) = some 0x00000002 := by
  decide

/-- 95 2.4. -/
theorem test_clrst :
    statusAfter 0x8C000000 (((withRegs []).raise (.invalidCharacter 15)).raise .illegalCommand) = some 0x00000000 := by
  decide

/-- 95 2.1, vd = va. -/
theorem test_vcls_in_place :
    regAfter 0xA0000200 0 (withRegs [(0, [0x41, 0x61, 0x30, 0x2B, 0x2F, 0x3D] ++ List.replicate 10 0x5A)]) =
      some ([0xBF, 0xB9, 0x04, 0x13, 0x10, 0x00] ++ List.replicate 10 0xBF) := by decide

/-- P4 command 5. -/
theorem test_vcls_blend : regAfter 0xA1000100 2 (withRegs [(0, batch2)]) =
    some ([0xBF, 0xBF, 0xBF, 0x00, 0xBF, 0xBF, 0xBF, 0x00] ++ List.replicate 8 0xBF) := by decide

/-- 95 2.1: a batch of '+' passes. -/
theorem test_vclsh_passes : regAfter 0xA4800100 1 (withRegs [(0, List.replicate 16 0x2B)]) =
      some (List.replicate 16 0x13) ∧
    statusAfter 0xA4800100 (withRegs [(0, List.replicate 16 0x2B)]) = some 0x00000000 := by decide

/-- 95 2.1: lane 15 fails, and V1 is unchanged. -/
theorem test_vclsh_fails :
    (after 0xA4800000 (withRegs [(0, List.replicate 15 0x41 ++ [0x3D]), (1, List.replicate 16 0x11)])).map
      (fun t => (t.reg 1, t.status.word, t.zm.value)) =
    some (List.replicate 16 0x11, 0x00000F01, List.replicate 15 false ++ [true]) := by decide

/-- P4 command 1. -/
theorem test_vdec_decodes : regAfter 0xA8800200 1 (withRegs [(0, batch1)]) = some decoded1 := by decide

/-- 95 2.1: V1 is "still unwritten". -/
theorem test_vdec_fails :
    (after 0xA8800200 (withRegs [(0, (List.range 16).map fun k => BitVec.ofNat 8 (0x30 + k))])).map
      (fun t => (t.regWritten 1, t.status.word)) = some (false, 0x00000A01) := by decide

/-- 95 2.6: STATUS, and zero DOUT. -/
theorem test_illegal_word :
    (after 0xA0800300 State.reset).map State.rsp = some (some ⟨0x00000002, List.replicate 16 0x00⟩) := by decide

/-- 95 1.2, 2.1: the band edges. -/
theorem test_shift_at_band_edges :
    ([0, 42, 43, 44, 46, 47, 48, 57, 58, 64, 65, 90, 91, 93, 96, 97, 122, 123, 127, 128, 255] : List Byte).map shift =
      [0, 0, 0x13, 0, 0, 0x10, 4, 4, 0, 0, 0xBF, 0xBF, 0, 0, 0, 0xB9, 0xB9, 0, 0, 0, 0] := by decide

/-! ## Witnesses: for each obligation with hypotheses, an input that meets them all -/

/-- A state with this word in flight with this payload, and an edge at which it completes. -/
def running (w : Word) (data : Vec) (s : State) : State :=
  { s.accept ⟨w, data⟩ with pending := [Edge.complete, Edge.takes] }

/-- A state with a response to take. -/
def responding : State := { State.reset.complete (List.replicate 16 0x00) with pending := [Edge.takes] }

/-- A waiting state at whose next edge a command is offered. -/
def offering : State := { State.reset with pending := [Edge.offer ⟨0x04000000, upward⟩] }

theorem witness_EncodeDecodeRoundTrip : decode 0x53AE4000 = .ok (.vblend 7 1 2 7) := by decide

theorem witness_NopHasExactlyOneEncoding :
    (0x03FFFFFF : Word).extractLsb' 26 6 = 0#6 ∧ (0x03FFFFFF : Word) ≠ 0x00000000 := by decide

theorem witness_StepRunsTheDecodedCommand :
    ∃ (s : State) (e : Edge) (rest : List Edge) (c : Command) (i : Instr),
      s.pending = e :: rest ∧ e.rst = false ∧ e.done = true ∧ s.rsp = none ∧ s.inFlight = some c ∧
      decode c.word = .ok i :=
  ⟨running 0x04000000 upward State.reset, Edge.complete, [Edge.takes], ⟨0x04000000, upward⟩, .vin 0, by decide⟩

theorem witness_IllegalWordSetsIllOnly :
    (∃ (s : State) (e : Edge) (rest : List Edge) (c : Command),
      s.pending = e :: rest ∧ e.rst = false ∧ e.done = true ∧ s.rsp = none ∧ s.inFlight = some c ∧
      SpellsNoCommand c.word) ∧ SpellsNoCommand 0x84000001 ∧ SpellsNoCommand 0xA0800300 :=
  ⟨⟨running 0xFC000000 upward State.reset, Edge.complete, [Edge.takes], ⟨0xFC000000, upward⟩, by decide, by decide,
      by decide, by decide, by decide, .inl fun o => by cases o <;> decide⟩,
    .inr (.inl ⟨.vffs, by decide⟩), .inr (.inr ⟨.vcls, by decide⟩)⟩

theorem witness_CommandAcceptedWhenReady_accepts :
    ∃ (s : State) (e : Edge) (rest : List Edge),
      s.pending = e :: rest ∧ s.inFlight = none ∧ e.cmdValid = true ∧ s.cmdReady e.rst = true :=
  ⟨offering, Edge.offer ⟨0x04000000, upward⟩, [], by decide⟩

theorem witness_CommandAcceptedWhenReady_does_not :
    ∃ (s : State) (e : Edge) (rest : List Edge),
      s.pending = e :: rest ∧ s.inFlight = none ∧ e.cmdValid = true ∧ s.cmdReady e.rst = false :=
  ⟨{ offering with pending := [{ Edge.offer ⟨0, upward⟩ with rst := true }] },
    { Edge.offer ⟨0, upward⟩ with rst := true }, [], by decide⟩

theorem witness_ResponseTakenWhenReady :
    ∃ (s : State) (e : Edge) (rest : List Edge) (r : Response),
      s.pending = e :: rest ∧ s.rsp = some r ∧ s.inFlight = none ∧ e.rspReady = true ∧
      s.rspValid e.rst = true :=
  ⟨responding, Edge.takes, [], ⟨0x00000000, List.replicate 16 0x00⟩, by decide⟩

theorem witness_ResponseBusCarriesDout : ∃ (s : State) (r : Response), s.rsp = some r ∧ r.data.lane 15 = 0x1D :=
  ⟨State.reset.complete decoded1, ⟨0x00000000, decoded1⟩, by decide⟩

/-- The first and the last lane, with the lengths that the statement asks for. -/
theorem witness_LaneKIsBits8kOfTheImage :
    decoded1.length = 16 ∧ (Vec.image 16 decoded1).extractLsb' 0 8 = 0x00#8 ∧
      (Vec.image 16 decoded1).extractLsb' 120 8 = 0x1D#8 := by decide

theorem witness_ResetEdgeEntersResetState : ∃ (s : State) (e : Edge) (rest : List Edge),
      s.pending = e :: rest ∧ e.rst = true ∧ s.inFlight ≠ none :=
  ⟨{ running 0x8C000000 upward State.reset with pending := [Edge.resets] }, Edge.resets, [], by decide⟩

theorem witness_VinLoadsThePayload : ∃ (s : State) (c : Command), s.inFlight = some c ∧ c.data = upward :=
  ⟨running 0x04000000 upward State.reset, ⟨0x04000000, upward⟩, by decide⟩

theorem witness_DoutIsZeroButForVout :
    (∃ s t : State,
      exec (.vout 6) s = .next t ∧ s.reg 6 = decoded1) ∧ (∃ s t : State, exec (.vcls 1 0 .perm) s = .next t) ∧
    ∃ s t : State, illegalCommand s = .next t :=
  ⟨⟨withRegs [(6, decoded1)], _, rfl, by decide⟩, ⟨withRegs [(0, batch2)], _, rfl⟩, ⟨State.reset, _, rfl⟩⟩

/-- Two states that agree in lane 3 of V0, the one source, and differ in its other lanes and in lane 3 of V2. -/
theorem witness_LanewiseCommandsActLaneByLane :
    ∃ s u s' u' : State, dest (.vadd 1 0 0) = some 1 ∧ s.lanes = u.lanes ∧ 3 < s.n ∧
      (∀ r ∈ sources (.vadd 1 0 0), (s.reg r).lane 3 = (u.reg r).lane 3) ∧
      (∀ t ix, Instr.vadd 1 0 0 ≠ .vshuf 1 t ix) ∧ Instr.vadd 1 0 0 ≠ .vin 1 ∧ reporter (.vadd 1 0 0) = false ∧
      exec (.vadd 1 0 0) s = .next s' ∧ exec (.vadd 1 0 0) u = .next u' ∧ s.reg 0 ≠ u.reg 0 ∧
      (s.reg 2).lane 3 ≠ (u.reg 2).lane 3 :=
  ⟨withRegs [(0, batch2), (2, batch1)], withRegs [(0, List.replicate 16 0x40)], _, _, by decide, by decide, by decide,
    by decide, fun _ _ => by simp, by decide, by decide, rfl, rfl, by decide, by decide⟩

theorem witness_VffsReportsTheLowestSetBit :
    ∃ s : State, s.n = 16 ∧ s.zm.value.length = s.n ∧ s.zm.value.getD 3 false = true :=
  ⟨(withRegs []).writeZm ((List.range 16).map fun k => k == 3), by decide⟩

/-- Both ends of every range of R100, and both ends of every gap between them. -/
theorem witness_ShiftByCharacterRange :
    ([65, 90] : List Byte).map charClass = [.upper, .upper] ∧ ([97, 122] : List Byte).map charClass = [.lower, .lower] ∧
    ([48, 57] : List Byte).map charClass = [.digit, .digit] ∧ charClass 43 = .plus ∧ charClass 47 = .slash ∧
    ([0, 42, 44, 46, 58, 64, 91, 96, 123, 255] : List Byte).map charClass = List.replicate 10 .invalid := by decide

theorem witness_ShiftedByteIsItsBase64Value :
    ([65, 90, 97, 122, 48, 57, 43, 47] : List Byte).map (fun b => (b + shift b).toNat) =
      [0, 25, 26, 51, 52, 61, 62, 63] := by decide

/-- P3: the bucket indices of the band edges. -/
theorem witness_BucketIndexCountsThresholds :
    bucketIndex 16 [0x2A, 0x2B, 0x2C, 0x2E, 0x2F, 0x30, 0x39, 0x3A, 0x40, 0x41, 0x5A, 0x5B, 0x60, 0x61, 0x7A, 0x7B] =
      [0, 1, 2, 2, 3, 4, 4, 5, 5, 6, 6, 7, 7, 8, 8, 9] := by decide

/-- Both cases of the statements about VCLSH and VDEC. -/
theorem witness_VclshClassifiesAndReports :
    (∃ t : State, exec (.vclsh 1 0 .mask) (withRegs [(0, batch1)]) = .next t ∧ t.status.fail = false) ∧
    ∃ t : State, exec (.vclsh 1 0 .mask) (withRegs [(0, batch2)]) = .next t ∧ t.status.fail = true :=
  ⟨⟨_, rfl, by decide⟩, ⟨_, rfl, by decide⟩⟩

theorem witness_VdecDecodesOrReports :
    (∃ t : State, exec (.vdec 1 0 .perm) (withRegs [(0, batch1)]) = .next t ∧ t.status.fail = false) ∧
    ∃ t : State, exec (.vdec 1 0 .perm) (withRegs [(0, batch2)]) = .next t ∧ t.status.fail = true :=
  ⟨⟨_, rfl, by decide⟩, ⟨_, rfl, by decide⟩⟩

/-- 95 1.7: the round trip of P1's batch, with V7, V0, V6 and V5. -/
theorem witness_ShiftThenUnshiftRestoresTheBatch :
    ∃ (s : State) (vs vx vy : VReg), vs ≠ vx ∧ vs ≠ vy ∧ (s.reg vx).length = s.n ∧
      ∀ k, k < s.n → charClass ((s.reg vx).lane k) ≠ .invalid :=
  ⟨withRegs [(0, batch1)], 7, 0, 6, by decide, by decide, by decide, by decide⟩

/-- A state with a command in flight that meets the invariant. -/
theorem inv_running (w : Word) : Inv (running w upward (withRegs [(0, batch2)])) where
  regLanes := by show ∀ r, ((withRegs [(0, batch2)]).reg r).length = 16; decide
  zmLanes := rfl
  laneInRange := by show (0 : BitVec 6).toNat < 16; decide
  laneOnlyOnFail := fun _ => rfl
  oneAtATime := .inl rfl
  payloadLanes := fun c h => by cases h; rfl
  rspIsCurrent := fun r h => by cases h
  oneResponseEach := rfl

/-- A step that completes a command and fails the batch. -/
theorem witness_EveryStepKeepsTheInvariant :
    ∃ s t : State, Inv s ∧ step s = .next t ∧ s.inFlight ≠ none ∧ t.status.word = 0x00000301 :=
  ⟨_, _, inv_running 0xA8800200, rfl, by decide, by decide⟩

/-- An illegal word, CLRST and a reset each change ILL. -/
theorem witness_IllStaysUntilCleared :
    (∃ s t : State, step s = .next t ∧ CompletesIllegal s ∧ t.status.ill ≠ s.status.ill) ∧
    (∃ s t : State, step s = .next t ∧ Completes s .clrst ∧ t.status.ill ≠ s.status.ill) ∧
    ∃ s t : State, step s = .next t ∧ AtReset s ∧ t.status.ill ≠ s.status.ill :=
  ⟨⟨running 0xFC000000 upward State.reset, _, rfl, ⟨⟨0xFC000000, upward⟩, .unassignedOpcode, by decide⟩, by decide⟩,
    ⟨running 0x8C000000 upward (State.reset.raise .illegalCommand), _, rfl, ⟨⟨0x8C000000, upward⟩, by decide⟩,
      by decide⟩,
    ⟨{ State.reset.raise .illegalCommand with pending := [Edge.resets] }, _, rfl, ⟨Edge.resets, [], by decide⟩,
      by decide⟩⟩

/-- A reporter changes FAIL and LANE, and CLRST completes in a state that meets the invariant. -/
theorem witness_OnlyReportersWriteFailAndLane :
    (∃ (s t : State) (i : Instr),
      Inv s ∧ step s = .next t ∧ Completes s i ∧ reporter i = true ∧ t.status.fail ≠ s.status.fail ∧
      t.status.lane ≠ s.status.lane) ∧ ∃ s t : State, Inv s ∧ step s = .next t ∧ Completes s .clrst :=
  ⟨⟨_, _, .vdec 1 0 .perm, inv_running 0xA8800200, rfl, ⟨⟨0xA8800200, upward⟩, by decide⟩,
      by decide, by decide, by decide⟩,
    ⟨_, _, inv_running 0x8C000000, rfl, ⟨⟨0x8C000000, upward⟩, by decide⟩⟩⟩

theorem witness_OnlyFourCommandsWriteZm : ∃ s t : State, step s = .next t ∧ t.zm ≠ s.zm :=
  ⟨running 0x80000000 upward (withRegs [(0, zeros37)]), _, rfl, by decide⟩

theorem witness_OnlyTheDestinationRegisterChanges :
    ∃ s t : State, step s = .next t ∧ ¬ AtReset s ∧ t.reg 1 ≠ s.reg 1 ∧ t.regWritten 1 ≠ s.regWritten 1 ∧
      s.regWritten 0 = true :=
  ⟨running 0x0C80007E upward (withRegs [(0, batch2)]), _, rfl,
    fun ⟨_, _, h, hr⟩ => by obtain ⟨rfl, -⟩ := List.cons.inj h; exact absurd hr (by decide), by decide, by decide,
    by decide⟩

/-- An edge that completes no command: here a slow one, with a command in flight, in a state that meets the
invariant. -/
theorem witness_RegistersChangeOnlyAtCompletion :
    ∃ (s t : State) (c : Command), step s = .next t ∧ nextCompletion s = none ∧ ¬ AtReset s ∧ Inv s ∧
      s.inFlight = some c :=
  ⟨{ running 0x8C000000 upward (withRegs [(0, batch2)]) with pending := [Edge.idle] }, _, ⟨0x8C000000, upward⟩, rfl,
    by decide, fun ⟨_, _, h, hr⟩ => by obtain ⟨rfl, -⟩ := List.cons.inj h; exact absurd hr (by decide),
    have h := inv_running 0x8C000000
    ⟨h.regLanes, h.zmLanes, h.laneInRange, h.laneOnlyOnFail, h.oneAtATime, h.payloadLanes, h.rspIsCurrent,
      h.oneResponseEach⟩, rfl⟩

theorem witness_OneResponsePerCommandInOrder :
    (∃ s t : State, step s = .next t ∧ ¬ AtReset s ∧ nextCompletion s = none) ∧
    ∃ s t : State, step s = .next t ∧ ¬ AtReset s ∧ nextCompletion s ≠ none :=
  ⟨⟨responding, _, rfl,
      fun ⟨_, _, h, hr⟩ => by obtain ⟨rfl, -⟩ := List.cons.inj h; exact absurd hr (by decide), by decide⟩,
    ⟨running 0xFC000000 upward State.reset, _, rfl,
      fun ⟨_, _, h, hr⟩ => by obtain ⟨rfl, -⟩ := List.cons.inj h; exact absurd hr (by decide), by decide⟩⟩

/-- The host offers a second command instead of taking the response. -/
theorem witness_UntakenResponseBlocks :
    ∃ (s : State) (r : Response), s.rsp = some r ∧ ∀ e ∈ s.pending, e.rst = false ∧ e.rspReady = false :=
  ⟨{ responding with pending := [Edge.idle, Edge.offer ⟨0x8C000000, upward⟩, Edge.complete] },
    ⟨0x00000000, List.replicate 16 0x00⟩, by decide⟩

/-- One quiet edge, two slow ones and one untaken one about a command. -/
theorem witness_ResultsHoldForEveryLatency :
    ∃ (s : State) (quiet slow held rest : List Edge) (offer done taking : Edge), Waiting s ∧
      (∀ e ∈ quiet, e.rst = false ∧ e.cmdValid = false) ∧ (offer.rst = false ∧ offer.cmdValid = true) ∧
      (∀ e ∈ slow, e.rst = false ∧ e.done = false) ∧ (done.rst = false ∧ done.done = true) ∧
      (∀ e ∈ held, e.rst = false ∧ e.rspReady = false) ∧ (taking.rst = false ∧ taking.rspReady = true) ∧
      s.pending = quiet ++ offer :: slow ++ done :: held ++ taking :: rest ∧ slow.length = 2 :=
  ⟨{ State.reset with pending := [Edge.idle, Edge.offer ⟨0x04000000, upward⟩, Edge.idle, Edge.takes, Edge.complete,
      Edge.idle, Edge.takes, Edge.resets] },
    [Edge.idle], [Edge.idle, Edge.takes], [Edge.idle], [Edge.resets], Edge.offer ⟨0x04000000, upward⟩, Edge.complete,
    Edge.takes, ⟨rfl, rfl⟩, by decide, by decide, by decide, by decide, by decide, by decide, rfl, rfl⟩

/-- Two states that differ in what the unwritten V1 holds, about to run a command that does not read it. -/
theorem witness_UnwrittenContentsAreNeverSeen :
    ∃ s u : State, SameWritten s u ∧ stepReadsWritten s = true ∧ s ≠ u ∧ (nextCompletion s).isSome = true :=
  ⟨running 0x88000000 upward (withRegs [(0, batch1)]),
    { running 0x88000000 upward (withRegs [(0, batch1)]) with
      v := (withRegs [(0, batch1)]).v.set 1 ⟨List.replicate 16 0xEE, false⟩ },
    ⟨rfl, by decide, by decide, rfl, fun _ => rfl, rfl, rfl, rfl, rfl, rfl, rfl⟩, by decide, by decide, by decide⟩

/-- 95 2.4, 2.5: VOUT of an unwritten register and VFFS right after reset are faults of the strict machine; with the
register written it steps. -/
theorem witness_StrictMachineStopsOnUnwrittenReads :
    strictStep (running 0x08100000 upward State.reset) = .fault .unwrittenRead ∧
    strictStep (running 0x84000000 upward State.reset) = .fault .unwrittenRead ∧
    stepReadsWritten (running 0x08100000 upward (withRegs [(1, batch1)])) = true :=
  ⟨rfl, rfl, rfl⟩

end Sys2Proof.Tests
end

section
/-! The 8N-bit image and its lanes determine each other (00_scope.md R8). -/

namespace Sys2Proof.Vec

open Sys2Proof

/-- Two 8N-bit images with the same lanes are equal: bit j is bit `j % 8` of lane `j / 8`. -/
theorem image_ext_lanes {n : Nat} {w w' : BitVec (8 * n)}
    (h : ∀ k, k < n → w.extractLsb' (8 * k) 8 = w'.extractLsb' (8 * k) 8) : w = w' := by
  apply BitVec.eq_of_getLsbD_eq
  intro j hj
  have hbit := congrArg (·.getLsbD (j % 8)) (h (j / 8) (by omega))
  simpa [BitVec.getLsbD_extractLsb', Nat.mod_lt, Nat.div_add_mod] using hbit

@[simp] theorem image_ofImage {n : Nat} (w : BitVec (8 * n)) : image n (ofImage n w) = w :=
  image_ext_lanes fun _ hk => (extract_image _ hk).trans (lane_ofImage w hk)

theorem ofImage_image {n : Nat} {x : Vec} (hx : x.length = n) : ofImage n (image n x) = x :=
  ext_lanes (length_ofImage n _) hx fun _ hk => (lane_ofImage _ hk).trans (extract_image x hk)

end Sys2Proof.Vec

namespace Sys2Proof.Proofs

open Sys2Proof

/-- Settles O56: the lanes of an image are those of the vector (`Vec.extract_image`, `Vec.lane_ofImage`), and on either
side equal lanes make equal values (`Vec.image_ext_lanes`, `Vec.ext_lanes`). -/
theorem laneKIsBits8kOfTheImage : Obligations.LaneKIsBits8kOfTheImage :=
  ⟨fun s r _ hk => Vec.extract_image (s.reg r) hk,
    fun _ => ⟨fun w => ⟨fun _ hk => Vec.lane_ofImage w hk, Vec.image_ofImage w⟩, fun _ hx => Vec.ofImage_image hx⟩⟩

end Sys2Proof.Proofs
end

section
/-! What a step does, said once in the terms of Sys2Proof/Safety.lean: whether the next edge is a reset, which command
completes at it, and else what the ports do (44_host_port.md R201, R202, 70_reset_and_hazards.md R400). -/

namespace Sys2Proof.Machine.State

/-- The state with its next edge consumed, all else as it was. -/
def advance (s : State) : State := { s with pending := s.pending.tail }

@[simp] theorem lanes_advance (s : State) : s.advance.lanes = s.lanes := rfl
@[simp] theorem v_advance (s : State) : s.advance.v = s.v := rfl
@[simp] theorem zm_advance (s : State) : s.advance.zm = s.zm := rfl
@[simp] theorem status_advance (s : State) : s.advance.status = s.status := rfl
@[simp] theorem rsp_advance (s : State) : s.advance.rsp = s.rsp := rfl
@[simp] theorem inFlight_advance (s : State) : s.advance.inFlight = s.inFlight := rfl
@[simp] theorem position_advance (s : State) : s.advance.position = s.position := rfl
@[simp] theorem pending_advance (s : State) : s.advance.pending = s.pending.tail := rfl
@[simp] theorem received_advance (s : State) : s.advance.received = s.received := rfl
@[simp] theorem n_advance (s : State) : s.advance.n = s.n := rfl
@[simp] theorem reg_advance (s : State) (r : VReg) : s.advance.reg r = s.reg r := rfl
@[simp] theorem regWritten_advance (s : State) (r : VReg) : s.advance.regWritten r = s.regWritten r := rfl

theorem advance_of_nil {s : State} (h : s.pending = []) : s.advance = s := by
  cases s
  simp_all [advance]

theorem advance_of_cons {s : State} {e : Edge} {rest : List Edge} (h : s.pending = e :: rest) :
    s.advance = { s with pending := rest } := by
  simp [advance, h]

end Sys2Proof.Machine.State

namespace Sys2Proof.Safety

open Sys2Proof Sys2Proof.Machine

variable {s t : State}

/-! ## The next edge -/

theorem atReset_iff_of_cons {e : Edge} {rest : List Edge} (hp : s.pending = e :: rest) :
    AtReset s ↔ e.rst = true := by
  simp [AtReset, hp]

theorem nextCompletion_eq_some_iff {c : Command} :
    nextCompletion s = some c ↔ ∃ e rest, s.pending = e :: rest ∧ s.edgeEvent e = .completed c := by
  cases hp : s.pending with
  | nil => simp [nextCompletion, hp]
  | cons e rest => cases hev : s.edgeEvent e <;> simp [nextCompletion, hp, hev]

/-- The guards of a completion: no reset, no response waiting, the command in flight. -/
theorem guards_of_nextCompletion {c : Command} (h : nextCompletion s = some c) :
    ¬ AtReset s ∧ s.rsp = none ∧ s.inFlight = some c := by
  obtain ⟨e, rest, hp, hev⟩ := nextCompletion_eq_some_iff.1 h
  rw [atReset_iff_of_cons hp]
  obtain ⟨-, he⟩ | ⟨r, -, -, -, he⟩ | ⟨c', hr, hs, hf, -, he⟩ | ⟨-, -, -, -, he⟩ | ⟨-, he⟩ :=
    State.edgeEvent_cases e s
  case inr.inr.inl =>
    obtain rfl : c' = c := by simpa [he] using hev
    exact ⟨by simp [hr], hs, hf⟩
  all_goals simp [he] at hev

theorem nextCompletion_eq_none_of_event {e : Edge} {rest : List Edge} (hp : s.pending = e :: rest)
    (h : ∀ c, s.edgeEvent e ≠ .completed c) : nextCompletion s = none := by
  cases hn : nextCompletion s with
  | none => rfl
  | some c =>
    obtain ⟨e', rest', hp', hev⟩ := nextCompletion_eq_some_iff.1 hn
    obtain ⟨rfl, -⟩ := List.cons.inj (hp.symm.trans hp')
    exact absurd hev (h c)

theorem Completes.not_atReset {i : Instr} (h : Completes s i) : ¬ AtReset s := by
  obtain ⟨c, hc, -⟩ := h
  exact (guards_of_nextCompletion hc).1

theorem CompletesIllegal.not_atReset (h : CompletesIllegal s) : ¬ AtReset s := by
  obtain ⟨c, -, hc, -⟩ := h
  exact (guards_of_nextCompletion hc).1

theorem Completes.rsp_eq_none {i : Instr} (h : Completes s i) : s.rsp = none := by
  obtain ⟨c, hc, -⟩ := h
  exact (guards_of_nextCompletion hc).2.1

theorem CompletesIllegal.rsp_eq_none (h : CompletesIllegal s) : s.rsp = none := by
  obtain ⟨c, -, hc, -⟩ := h
  exact (guards_of_nextCompletion hc).2.1

theorem Completes.unique {i j : Instr} (hi : Completes s i) (hj : Completes s j) : i = j := by
  obtain ⟨c, hc, hd⟩ := hi
  obtain ⟨c', hc', hd'⟩ := hj
  obtain rfl := Option.some.inj (hc.symm.trans hc')
  exact Except.ok.inj (hd.symm.trans hd')

theorem Completes.not_illegal {i : Instr} (hi : Completes s i) : ¬ CompletesIllegal s := by
  rintro ⟨c', x, hc', hd'⟩
  obtain ⟨c, hc, hd⟩ := hi
  obtain rfl := Option.some.inj (hc.symm.trans hc')
  simp [hd] at hd'

theorem not_completes_of_none {i : Instr} (h : nextCompletion s = none) : ¬ Completes s i := by
  simp [Completes, h]

theorem not_completesIllegal_of_none (h : nextCompletion s = none) : ¬ CompletesIllegal s := by
  simp [CompletesIllegal, h]

/-! ## The step -/

/-- What the ports do at an edge that is no reset and completes no command: nothing, the host takes the response, or a
command is accepted (44_host_port.md R201, R202). -/
inductive PortMove (s : State) : State → Prop
  | quiet : PortMove s s
  | taken (r : Response) (hr : s.rsp = some r) : PortMove s (s.take r)
  | accepted (c : Command) (hr : s.rsp = none) (hf : s.inFlight = none) (hc : c.data.length = s.n) :
      PortMove s (s.accept c)

/-- The ports change no register. -/
theorem PortMove.kept (h : PortMove s t) : t.v = s.v ∧ t.zm = s.zm ∧ t.status = s.status := by
  cases h <;> exact ⟨rfl, rfl, rfl⟩

/-- Everything a step can be: a reset, the completion of a command or of an illegal word, or a move of the ports. -/
inductive StepShape (s : State) : State → Prop
  | reset (h : AtReset s) : StepShape s s.advance.afterReset
  | completes (i : Instr) (h : Completes s i) :
      StepShape s ((effect i s.advance).complete (doutOf i s.advance))
  | illegal (h : CompletesIllegal s) :
      StepShape s ((s.advance.raise .illegalCommand).complete (Vec.bcast s.n 0x00))
  | port (u : State) (hc : nextCompletion s = none) (hr : ¬ AtReset s) (h : PortMove s.advance u) : StepShape s u

theorem step_shape (h : step s = .next t) : StepShape s t := by
  obtain ⟨hp, rfl⟩ | ⟨e, rest, hp, hcase⟩ := step_cases h
  · have hmove : PortMove t.advance t := by rw [State.advance_of_nil hp]; exact .quiet
    exact .port _ (by simp [nextCompletion, hp]) (by simp [AtReset, hp]) hmove
  rw [← State.advance_of_cons hp] at hcase
  have hreset := atReset_iff_of_cons hp
  obtain ⟨hr, rfl⟩ | ⟨r, hr, hs, hy, rfl⟩ | ⟨c, hr, hs, hf, hd, hw⟩ | ⟨hr, hs, hf, hv, rfl⟩ | ⟨hr, hq, rfl⟩ := hcase
  · exact .reset (hreset.2 hr)
  · refine .port _ (nextCompletion_eq_none_of_event hp ?_) (by simp [hreset, hr]) (.taken r hs)
    simp [State.edgeEvent, hr, hs, hy]
  · have hnext : nextCompletion s = some c :=
      nextCompletion_eq_some_iff.2 ⟨e, rest, hp, by simp [State.edgeEvent, hr, hs, hf, hd]⟩
    cases hdec : decode c.word with
    | ok i =>
      rw [runWord_ok hdec, exec_eq] at hw
      obtain rfl := Host.Outcome.next.inj hw
      exact .completes i ⟨c, hnext, hdec⟩
    | error x =>
      rw [runWord_error hdec, illegalCommand_eq] at hw
      obtain rfl := Host.Outcome.next.inj hw
      exact .illegal ⟨c, x, hnext, hdec⟩
  · refine .port _ (nextCompletion_eq_none_of_event hp ?_) (by simp [hreset, hr]) (.accepted _ hs hf (by simp))
    simp [State.edgeEvent, hr, hs, hf, hv]
  · exact .port _ (nextCompletion_eq_none_of_event hp (by simp [hq])) (by simp [hreset, hr]) .quiet

theorem exists_runWord_eq_next (w : Word) (s : State) : ∃ t, runWord w s = .next t := by
  cases hd : decode w with
  | ok i => exact ⟨_, (runWord_ok hd s).trans (exec_eq i s)⟩
  | error x => exact ⟨_, (runWord_error hd s).trans (illegalCommand_eq s)⟩

theorem exists_stepEdge_eq_next (e : Edge) (s : State) : ∃ t, stepEdge e s = .next t := by
  unfold stepEdge
  cases s.edgeEvent e with
  | completed c => exact exists_runWord_eq_next c.word s
  | _ => exact ⟨_, rfl⟩

/-- No step stops: every event of an edge answers a next state (60_exceptions.md R300, R306). -/
theorem exists_step_eq_next (s : State) : ∃ t, step s = .next t := by
  unfold step
  cases s.pending with
  | nil => exact ⟨s, rfl⟩
  | cons e rest => exact exists_stepEdge_eq_next e _

end Sys2Proof.Safety
end

section
/-! The effects of the commands, sorted once by which of V, ZM and STATUS they write, and how each shape treats those
(10_state.md R22 to R28, R35). -/

namespace Sys2Proof

@[simp] theorem length_datapath (var : Variant) (n : Nat) (x : Vec) : (datapath var n x).length = n := by
  cases var <;> simp [datapath, maskDatapath, blendDatapath, permDatapath, blendStep]

@[simp] theorem length_applyShift (n : Nat) (x sh : Vec) : (applyShift n x sh).length = n := by
  simp [applyShift]

end Sys2Proof

namespace Sys2Proof.Safety

open Sys2Proof Sys2Proof.Machine

variable {s t : State} {i : Instr}

/-- Everything the effect of a command can be, with what `dest`, `reporter` and `writesZm` say of such a command. -/
inductive EffectShape (i : Instr) (s : State) : State → Prop
  | keeps (hr : reporter i = false) : EffectShape i s s
  | writes (d : VReg) (x : Vec) (hd : dest i = some d) (hx : x.length = s.n) (hr : reporter i = false) :
      EffectShape i s (s.writeReg d x)
  | masks (x : Vec) (hw : writesZm i = true) (hr : reporter i = false) : EffectShape i s (s.writeZm (zmask s.n x))
  | examines (hr : reporter i = true) : EffectShape i s (s.outcome s.zm.value)
  | reports (x : Vec) (hw : writesZm i = true) (hr : reporter i = true) : EffectShape i s (s.report x)
  | reportsThenWrites (d : VReg) (x y : Vec) (hd : dest i = some d) (hy : y.length = s.n) (hw : writesZm i = true)
      (hr : reporter i = true) : EffectShape i s ((s.report x).writeReg d y)
  | clears (hi : i = .clrst) : EffectShape i s s.clearStatus

/-- VCLSH and VDEC: a report, and a write where it passes. -/
theorem effectShape_reportThenWrite {d : VReg} {sh x : Vec} (hd : dest i = some d) (hx : x.length = s.n)
    (hw : writesZm i = true) (hr : reporter i = true) : EffectShape i s (reportThenWrite d sh x s) := by
  obtain ⟨-, e⟩ | ⟨-, e⟩ := reportThenWrite_cases d sh x s <;> rw [e]
  · exact .reports sh hw hr
  · exact .reportsThenWrites d sh x hd hx hw hr

theorem effect_shape (i : Instr) (s : State) : EffectShape i s (effect i s) := by
  cases i
  case nop | vout => exact .keeps rfl
  case vzmask a => exact .masks (s.reg a) rfl rfl
  case vffs => exact .examines rfl
  case vchk a => exact .reports (s.reg a) rfl rfl
  case clrst => exact .clears rfl
  case vclsh | vdec => exact effectShape_reportThenWrite rfl (by simp) rfl rfl
  all_goals exact .writes _ _ rfl (by simp) rfl

/-- Registers but the destination are unchanged. -/
theorem EffectShape.reg_eq (h : EffectShape i s t) {r : VReg} (hr : dest i ≠ some r) :
    t.reg r = s.reg r ∧ t.regWritten r = s.regWritten r := by
  have hne {d : VReg} (hd : dest i = some d) : r ≠ d := fun e => hr (e ▸ hd)
  cases h with
  | writes d x hd => exact ⟨s.reg_writeReg_ne x (hne hd), s.regWritten_writeReg_ne x (hne hd)⟩
  | reportsThenWrites d x y hd =>
    simp [State.reg_writeReg_ne _ y (hne hd), State.regWritten_writeReg_ne _ y (hne hd), State.report_eq]
  | _ => simp [State.report_eq]

/-- A written register stays written (10_state.md R23). -/
theorem EffectShape.regWritten (h : EffectShape i s t) {r : VReg} (hr : s.regWritten r = true) :
    t.regWritten r = true := by
  by_cases hd : dest i = some r
  · cases h with
    | writes d x hd' =>
      obtain rfl := Option.some.inj (hd'.symm.trans hd)
      simp
    | reportsThenWrites d x y hd' =>
      obtain rfl := Option.some.inj (hd'.symm.trans hd)
      simp
    | _ => simpa [State.report_eq] using hr
  · rw [(h.reg_eq hd).2, hr]

theorem EffectShape.zm_eq (h : EffectShape i s t) (hw : writesZm i = false) : t.zm = s.zm := by
  cases h with
  | masks _ hw' | reports _ hw' | reportsThenWrites _ _ _ _ _ hw' => simp [hw'] at hw
  | _ => simp

theorem EffectShape.status_eq (h : EffectShape i s t) (hr : reporter i = false) (hi : i ≠ .clrst) :
    t.status = s.status := by
  cases h with
  | examines hr' | reports _ _ hr' | reportsThenWrites _ _ _ _ _ _ hr' => simp [hr'] at hr
  | clears hi' => exact absurd hi' hi
  | _ => simp

theorem EffectShape.ill_eq (h : EffectShape i s t) (hi : i ≠ .clrst) : t.status.ill = s.status.ill := by
  cases h with
  | clears hi' => exact absurd hi' hi
  | _ => simp [State.report_eq]

/-- `outcome` writes FAIL and LANE as R182 says: a mask of at most 64 bits has its first set bit in LANE's range. -/
theorem isOutcome_outcome {z : LaneMask} (hz : z.length ≤ 64) : IsOutcome s (s.outcome z) z := by
  refine ⟨State.ill_outcome z s, ?_⟩
  obtain ⟨hnz, e⟩ | ⟨hnz, e⟩ := State.outcome_cases z s
  · obtain ⟨hset, hlow⟩ := ffs_spec hnz
    have hlt := ffs_lt_length hnz
    refine .inr ⟨ffs z, hset, hlow, by simp [e], ?_⟩
    simp only [e, State.status_raise_invalidCharacter, BitVec.toNat_ofNat]
    omega
  · refine .inl ⟨fun b hb => ?_, by simp [e], by simp [e]⟩
    have : true ∉ z := fun h => by simp [(nonzero_iff z).2 h] at hnz
    cases b
    · rfl
    · exact absurd hb this

/-- A report is the outcome of the mask that it leaves in ZM. -/
theorem isOutcome_report (x : Vec) (s : State) : IsOutcome s (s.report x) (s.report x).zm.value := by
  rw [State.zm_report, State.report_eq]
  exact isOutcome_outcome (s := s.writeZm _) (by simpa using s.n_le)

/-- After a reporter FAIL and LANE are those of the mask in ZM (10_state.md R26, R28). -/
theorem EffectShape.isOutcome (h : EffectShape i s t) (hr : reporter i = true) (hz : s.zm.value.length = s.n) :
    IsOutcome s t t.zm.value := by
  cases h with
  | examines =>
    rw [State.zm_outcome]
    exact isOutcome_outcome (hz ▸ s.n_le)
  | reports x => exact isOutcome_report x s
  | reportsThenWrites d x => exact isOutcome_report x s
  | clears hi => simp [hi, reporter] at hr
  | keeps hr' | writes _ _ _ _ hr' | masks _ _ hr' => simp [hr'] at hr

end Sys2Proof.Safety
end

section
/-! The invariant, operation by operation: first the clauses about V, ZM and STATUS, which a command can break, then
the whole over a completion, a reset and a move of the ports. -/

namespace Sys2Proof.Safety

open Sys2Proof Sys2Proof.Machine

variable {s t : State}

/-- The clauses of `Inv` about V, ZM and STATUS. -/
structure RegistersOk (s : State) : Prop where
  regLanes : ∀ r, (s.reg r).length = s.n
  zmLanes : s.zm.value.length = s.n
  laneInRange : s.status.lane.toNat < s.n
  laneOnlyOnFail : s.status.fail = false → s.status.lane = 0

theorem Inv.registersOk (h : Inv s) : RegistersOk s :=
  ⟨h.regLanes, h.zmLanes, h.laneInRange, h.laneOnlyOnFail⟩

theorem toNat_zero_lt_n (s : State) : (0 : BitVec 6).toNat < s.n := Nat.lt_of_lt_of_le (by decide) s.n_pos

namespace RegistersOk

theorem writeReg (h : RegistersOk s) (d : VReg) {x : Vec} (hx : x.length = s.n) : RegistersOk (s.writeReg d x) where
  regLanes r := by
    by_cases hr : r = d
    · subst hr
      simpa using hx
    · simpa [s.reg_writeReg_ne x hr] using h.regLanes r
  zmLanes := h.zmLanes
  laneInRange := h.laneInRange
  laneOnlyOnFail := h.laneOnlyOnFail

theorem writeZm (h : RegistersOk s) {z : LaneMask} (hz : z.length = s.n) : RegistersOk (s.writeZm z) :=
  ⟨h.regLanes, hz, h.laneInRange, h.laneOnlyOnFail⟩

theorem raise_illegalCommand (h : RegistersOk s) : RegistersOk (s.raise .illegalCommand) :=
  ⟨h.regLanes, h.zmLanes, h.laneInRange, h.laneOnlyOnFail⟩

theorem clearStatus (h : RegistersOk s) : RegistersOk s.clearStatus :=
  ⟨h.regLanes, h.zmLanes, toNat_zero_lt_n s, fun _ => rfl⟩

/-- The outcome of an N-bit mask: LANE is a bit of the mask, or 0. -/
theorem outcome (h : RegistersOk s) {z : LaneMask} (hz : z.length = s.n) : RegistersOk (s.outcome z) := by
  obtain ⟨hnz, e⟩ | ⟨-, e⟩ := State.outcome_cases z s <;> rw [e]
  · refine ⟨h.regLanes, h.zmLanes, ?_, fun hf => by simp at hf⟩
    exact Nat.lt_of_le_of_lt (by simpa using Nat.mod_le _ _) (hz ▸ ffs_lt_length hnz)
  · exact ⟨h.regLanes, h.zmLanes, toNat_zero_lt_n s, fun _ => rfl⟩

theorem report (h : RegistersOk s) (x : Vec) : RegistersOk (s.report x) :=
  (h.writeZm (length_zmask s.n x)).outcome (length_zmask s.n x)

/-- Every effect keeps the clauses about V, ZM and STATUS. -/
theorem of_effectShape (h : RegistersOk s) {i : Instr} (ht : EffectShape i s t) : RegistersOk t := by
  cases ht with
  | keeps => exact h
  | writes d x _ hx => exact h.writeReg d hx
  | masks x => exact h.writeZm (length_zmask s.n x)
  | examines => exact h.outcome h.zmLanes
  | reports x => exact h.report x
  | reportsThenWrites d x y _ hy => exact (h.report x).writeReg d (by simpa [State.report_eq] using hy)
  | clears => exact h.clearStatus

end RegistersOk

/-- The invariant at reset (10_state.md R37). -/
theorem inv_resetOf (c : LaneCount) : Inv (State.resetOf c) where
  regLanes r := by rw [State.reg_resetOf, Vec.length_bcast]; rfl
  zmLanes := List.length_replicate
  laneInRange := toNat_zero_lt_n (State.resetOf c)
  laneOnlyOnFail _ := rfl
  oneAtATime := .inl rfl
  payloadLanes c h := by cases h
  rspIsCurrent r h := by cases h
  oneResponseEach := rfl

/-- The coming edges are no part of the invariant. -/
theorem Inv.withPending (h : Inv s) (p : List Edge) : Inv { s with pending := p } :=
  { h with }

theorem length_doutOf (h : RegistersOk s) (i : Instr) : (doutOf i s).length = s.n := by
  cases i
  case vout a => exact h.regLanes a
  all_goals exact Vec.length_bcast s.n 0x00

/-- Completing where no response waits: `t` is the state after the command's own effect. -/
theorem Inv.complete (h : Inv s) (hrsp : s.rsp = none) (ht : RegistersOk t) (hst : SameShell s t) {dout : Vec}
    (hd : dout.length = s.n) : Inv (t.complete dout) where
  regLanes := ht.regLanes
  zmLanes := ht.zmLanes
  laneInRange := ht.laneInRange
  laneOnlyOnFail := ht.laneOnlyOnFail
  oneAtATime := .inr rfl
  payloadLanes c hc := by cases hc
  rspIsCurrent r hr := by
    obtain rfl := Option.some.inj hr
    exact ⟨rfl, hd.trans hst.n.symm⟩
  oneResponseEach := by
    have hcount := h.oneResponseEach
    simp_all [hst.received, hst.position]

theorem Inv.portMove (h : Inv s) (ht : PortMove s t) : Inv t := by
  cases ht with
  | quiet => exact h
  | taken r hr =>
    have hcount := h.oneResponseEach
    exact { h with
      oneAtATime := .inl rfl
      rspIsCurrent := fun r h => by cases h
      oneResponseEach := by simpa [hr] using hcount }
  | accepted c hr _ hc =>
    exact { h with
      oneAtATime := .inl hr
      payloadLanes := fun c' hc' => by obtain rfl := Option.some.inj hc'; exact hc }

theorem Inv.step (h : Inv s) (ht : step s = .next t) : Inv t := by
  have hadv : Inv s.advance := h.withPending s.pending.tail
  cases step_shape ht with
  | reset => exact (inv_resetOf s.lanes).withPending s.pending.tail
  | completes i hi =>
    exact hadv.complete hi.rsp_eq_none (hadv.registersOk.of_effectShape (effect_shape i _)) (sameShell_effect i _)
      (length_doutOf hadv.registersOk i)
  | illegal hi =>
    exact hadv.complete hi.rsp_eq_none hadv.registersOk.raise_illegalCommand (by constructor <;> rfl)
      (Vec.length_bcast s.n 0x00)
  | port _ _ _ hp => exact hadv.portMove hp

end Sys2Proof.Safety
end

section
/-! Reads of unwritten registers (93_implementation_defined.md U1, U2): when a step makes none, and that two states
alike but for unwritten contents (`SameWritten`) stay alike over every operation that makes none. -/

namespace Sys2Proof.Safety

open Sys2Proof Sys2Proof.Machine

variable {s u : State}

/-! ## When a step reads written registers only -/

theorem readsWritten_iff {i : Instr} :
    readsWritten i s = true ↔ (∀ r ∈ sources i, s.regWritten r = true) ∧ (i = .vffs → s.zm.written = true) := by
  by_cases hi : i = .vffs <;> simp [readsWritten, readsZm, hi]

theorem readsWritten_eq_false_iff {i : Instr} : readsWritten i s = false ↔
    (∃ r ∈ sources i, s.regWritten r = false) ∨ (i = .vffs ∧ s.zm.written = false) := by
  rw [← Bool.not_eq_true, readsWritten_iff, not_and_or]
  simp

theorem stepReadsWritten_iff : stepReadsWritten s = true ↔ ∀ i, Completes s i → readsWritten i s = true := by
  cases hn : nextCompletion s with
  | none => simp [stepReadsWritten, Completes, hn]
  | some c => cases hd : decode c.word <;> simp [stepReadsWritten, Completes, hn, hd]

theorem stepReadsWritten_eq_false_iff :
    stepReadsWritten s = false ↔ ∃ i, Completes s i ∧ readsWritten i s = false := by
  rw [← Bool.not_eq_true, stepReadsWritten_iff]
  simp

/-! ## States alike but for unwritten contents -/

namespace SameWritten

theorem n_eq (h : SameWritten s u) : s.n = u.n := congrArg LaneCount.count h.lanes

theorem din_eq (h : SameWritten s u) : s.din = u.din := by
  simp only [State.din, h.inFlight, h.n_eq]

theorem edgeEvent_eq (h : SameWritten s u) (e : Edge) : s.edgeEvent e = u.edgeEvent e := by
  simp only [State.edgeEvent, h.rsp, h.inFlight, h.n_eq]

theorem withPending (h : SameWritten s u) (p : List Edge) :
    SameWritten { s with pending := p } { u with pending := p } :=
  { h with pending := rfl }

theorem writeReg (h : SameWritten s u) (d : VReg) (x : Vec) : SameWritten (s.writeReg d x) (u.writeReg d x) :=
  { h with
    marks := fun r => by
      by_cases hr : r = d
      · subst hr
        simp
      · simpa [State.regWritten_writeReg_ne _ x hr] using h.marks r
    regs := fun r hw => by
      by_cases hr : r = d
      · subst hr
        simp
      · rw [State.regWritten_writeReg_ne _ x hr] at hw
        simpa [State.reg_writeReg_ne _ x hr] using h.regs r hw }

theorem writeZm (h : SameWritten s u) (z : LaneMask) : SameWritten (s.writeZm z) (u.writeZm z) :=
  { h with zmMark := rfl, zm := fun _ => rfl }

theorem clearStatus (h : SameWritten s u) : SameWritten s.clearStatus u.clearStatus :=
  { h with status := rfl }

theorem raise (h : SameWritten s u) (e : Event) : SameWritten (s.raise e) (u.raise e) := by
  cases e <;> exact { h with status := by simp [h.status] }

theorem pass (h : SameWritten s u) : SameWritten s.pass u.pass :=
  { h with status := by simp [h.status] }

theorem outcome (h : SameWritten s u) (z : LaneMask) : SameWritten (s.outcome z) (u.outcome z) := by
  unfold State.outcome
  split
  · exact h.raise _
  · exact h.pass

theorem report (h : SameWritten s u) (x : Vec) : SameWritten (s.report x) (u.report x) := by
  rw [State.report_eq, State.report_eq, h.n_eq]
  exact (h.writeZm _).outcome _

theorem reportThenWrite (h : SameWritten s u) (d : VReg) (sh x : Vec) :
    SameWritten (reportThenWrite d sh x s) (reportThenWrite d sh x u) := by
  simp only [Machine.reportThenWrite, (h.report sh).status]
  split
  · exact h.report sh
  · exact (h.report sh).writeReg d x

theorem complete (h : SameWritten s u) (dout : Vec) : SameWritten (s.complete dout) (u.complete dout) :=
  { h with
    rsp := by simp [h.status]
    inFlight := rfl
    position := congrArg (· + 1) h.position }

theorem take (h : SameWritten s u) (r : Response) : SameWritten (s.take r) (u.take r) :=
  { h with
    rsp := rfl
    received := congrArg (· ++ [r]) h.received }

theorem accept (h : SameWritten s u) (c : Command) : SameWritten (s.accept c) (u.accept c) :=
  { h with inFlight := rfl }

theorem afterReset_eq (h : SameWritten s u) : s.afterReset = u.afterReset := by
  simp [h.lanes, h.pending]

theorem refl (s : State) : SameWritten s s := by constructor <;> simp

/-- A command that reads written registers has sources with the same contents. -/
theorem reg_eq_of_mem_sources (h : SameWritten s u) {i : Instr} (hr : readsWritten i s = true) :
    ∀ r ∈ sources i, s.reg r = u.reg r :=
  fun r hmem => h.regs r ((readsWritten_iff.1 hr).1 r hmem)

theorem doutOf_eq (h : SameWritten s u) {i : Instr} (hr : readsWritten i s = true) : doutOf i s = doutOf i u := by
  have hsrc := h.reg_eq_of_mem_sources hr
  cases i
  case vout a => exact hsrc a (by simp [sources])
  all_goals simp [doutOf, h.n_eq]

/-- A command that reads written registers writes the same values into both states. -/
theorem effect (h : SameWritten s u) {i : Instr} (hr : readsWritten i s = true) :
    SameWritten (effect i s) (effect i u) := by
  have hsrc := h.reg_eq_of_mem_sources hr
  cases i <;> simp only [sources, List.forall_mem_cons] at hsrc <;>
    simp only [Machine.effect, h.n_eq, h.din_eq, hsrc]
  case nop | vout => exact h
  case vzmask => exact h.writeZm _
  case vffs =>
    rw [h.zm ((readsWritten_iff.1 hr).2 rfl)]
    exact h.outcome _
  case vchk => exact h.report _
  case clrst => exact h.clearStatus
  case vclsh | vdec => exact h.reportThenWrite _ _ _
  all_goals exact h.writeReg _ _

theorem runWord (h : SameWritten s u) {w : Word} (hr : ∀ i, decode w = .ok i → readsWritten i s = true) :
    ∃ s' u', runWord w s = .next s' ∧ runWord w u = .next u' ∧ SameWritten s' u' := by
  cases hd : decode w with
  | ok i =>
    rw [runWord_ok hd, runWord_ok hd, exec_eq, exec_eq, h.doutOf_eq (hr i hd)]
    exact ⟨_, _, rfl, rfl, (h.effect (hr i hd)).complete _⟩
  | error x =>
    rw [runWord_error hd, runWord_error hd, illegalCommand_eq, illegalCommand_eq, h.n_eq]
    exact ⟨_, _, rfl, rfl, (h.raise _).complete _⟩

theorem stepEdge (h : SameWritten s u) {e : Edge}
    (hr : ∀ c i, s.edgeEvent e = .completed c → decode c.word = .ok i → readsWritten i s = true) :
    ∃ s' u', stepEdge e s = .next s' ∧ stepEdge e u = .next u' ∧ SameWritten s' u' := by
  unfold Machine.stepEdge
  rw [← h.edgeEvent_eq e]
  cases hev : s.edgeEvent e with
  | reset => exact ⟨_, _, rfl, rfl, h.afterReset_eq ▸ refl _⟩
  | taken r => exact ⟨_, _, rfl, rfl, h.take r⟩
  | completed c => exact h.runWord fun i hd => hr c i hev hd
  | accepted c => exact ⟨_, _, rfl, rfl, h.accept c⟩
  | quiet => exact ⟨_, _, rfl, rfl, h⟩

theorem step (h : SameWritten s u) (hr : stepReadsWritten s = true) :
    ∃ s' u', step s = .next s' ∧ step u = .next u' ∧ SameWritten s' u' := by
  unfold Machine.step
  rw [← h.pending]
  cases hp : s.pending with
  | nil => exact ⟨s, u, rfl, rfl, h⟩
  | cons e rest =>
    exact (h.withPending rest).stepEdge fun c i hev hd =>
      stepReadsWritten_iff.1 hr i ⟨c, nextCompletion_eq_some_iff.2 ⟨e, rest, hp, hev⟩, hd⟩

end SameWritten

/-! ## The strict machine -/

theorem strictStep_of_readsWritten (h : stepReadsWritten s = true) {t : State} (ht : step s = .next t) :
    strictStep s = .next t := by
  simp [strictStep, h, ht]

theorem strictStep_fault_iff : strictStep s = .fault .unwrittenRead ↔ stepReadsWritten s = false := by
  cases h : stepReadsWritten s with
  | false => simp [strictStep, h]
  | true =>
    obtain ⟨t, ht⟩ := exists_step_eq_next s
    simp [strictStep_of_readsWritten h ht]

end Sys2Proof.Safety
end

section
/-! STATUS as a word, bit by bit and field by field (10_state.md R25). -/

namespace Sys2Proof.Machine.Status

/-- Every bit of STATUS (10_state.md R25, R29, R30). -/
theorem getLsbD_word (st : Status) (i : Nat) : st.word.getLsbD i =
    if i = 0 then st.fail else if i = 1 then st.ill
    else if 8 ≤ i ∧ i < 14 then st.lane.getLsbD (i - 8) else false := by
  simp only [Status.word, Status.offset, BitVec.getLsbD_append, BitVec.getLsbD_ofBool]
  grind

theorem extractLsb'_word_lane (st : Status) : st.word.extractLsb' 8 6 = st.lane := by
  apply BitVec.eq_of_getLsbD_eq
  intro i hi
  rw [BitVec.getLsbD_extractLsb', getLsbD_word, if_neg (by omega), if_neg (by omega), if_pos (by omega)]
  simp [hi]

/-- A field of STATUS is 0 where it lies between ILL and LANE or above LANE. -/
theorem extractLsb'_word_eq_zero (st : Status) {start len : Nat}
    (h : 2 ≤ start ∧ start + len ≤ 8 ∨ 14 ≤ start) : st.word.extractLsb' start len = 0#len := by
  apply BitVec.eq_of_getLsbD_eq
  intro i hi
  rw [BitVec.getLsbD_extractLsb', getLsbD_word, if_neg (by omega), if_neg (by omega), if_neg (by omega)]
  simp

theorem word_clear : Status.word ⟨false, false, 0⟩ = 0 := by decide

end Sys2Proof.Machine.Status
end

section
/-! The statements about the state and its invariants (10_state.md). -/

namespace Sys2Proof.Proofs

open Sys2Proof Sys2Proof.Machine Sys2Proof.Safety

/-- Settles O45: a reset gives the reset state; a completion keeps the clauses about V, ZM and STATUS by the shape of its
effect and fills an empty RSP; the ports keep the rest (`Inv.step`). -/
theorem everyStepKeepsTheInvariant : Obligations.EveryStepKeepsTheInvariant :=
  fun _ _ hs h => hs.step h

/-- Settles O54: equal sources give equal results, and the written marks agree throughout (`SameWritten.step`). -/
theorem unwrittenContentsAreNeverSeen : Obligations.UnwrittenContentsAreNeverSeen :=
  fun _ _ h hr => h.step hr

/-- Settles O46: by the shape of the step, with `EffectShape.ill_eq` for every command but CLRST. -/
theorem illStaysUntilCleared : Obligations.IllStaysUntilCleared := by
  intro s t h
  cases step_shape h with
  | reset hr =>
    exact ⟨fun hi => absurd hr hi.not_atReset, fun _ => rfl, fun _ => .inr (.inr hr)⟩
  | completes i hi =>
    refine ⟨fun hbad => absurd hbad hi.not_illegal, ?_, fun hne => .inr (.inl ?_)⟩
    · rintro (hc | hr)
      · obtain rfl := hi.unique hc
        rfl
      · exact absurd hr hi.not_atReset
    · by_contra hc
      have hi' : i ≠ .clrst := fun e => hc (e ▸ hi)
      exact hne ((effect_shape i s.advance).ill_eq hi')
  | illegal hi =>
    refine ⟨fun _ => rfl, ?_, fun _ => .inl hi⟩
    rintro (hc | hr)
    · exact absurd hi hc.not_illegal
    · exact absurd hr hi.not_atReset
  | port _ hn hr hp =>
    obtain ⟨-, -, hst⟩ := hp.kept
    refine ⟨fun hi => absurd hi (not_completesIllegal_of_none hn), ?_, fun hne => absurd (by simp [hst]) hne⟩
    rintro (hc | hr')
    · exact absurd hc (not_completes_of_none hn)
    · exact absurd hr' hr

/-- Settles O47: `EffectShape.isOutcome` for the reporters, `EffectShape.status_eq` for the commands that are neither a
reporter nor CLRST. -/
theorem onlyReportersWriteFailAndLane : Obligations.OnlyReportersWriteFailAndLane := by
  intro s t hs h
  cases step_shape h with
  | reset hr =>
    exact ⟨fun i hi => absurd hr hi.not_atReset, fun _ => ⟨rfl, rfl⟩, fun _ => .inr hr⟩
  | completes i hi =>
    have hshape := effect_shape i s.advance
    refine ⟨fun j hj hrep => ?_, fun hc => ?_, fun hne => .inl ⟨i, hi, ?_⟩⟩
    · obtain rfl := hi.unique hj
      exact hshape.isOutcome hrep hs.zmLanes
    · obtain rfl := hi.unique hc
      exact ⟨rfl, rfl⟩
    · by_contra hno
      obtain ⟨hrep, hclr⟩ := not_or.1 hno
      have hst := hshape.status_eq (by simpa using hrep) hclr
      simp [hst] at hne
  | illegal hi =>
    exact ⟨fun j hj => absurd hi hj.not_illegal, fun hc => absurd hi hc.not_illegal, fun hne => by simp at hne⟩
  | port _ hn _ hp =>
    obtain ⟨-, -, hst⟩ := hp.kept
    exact ⟨fun j hj => absurd hj (not_completes_of_none hn), fun hc => absurd hc (not_completes_of_none hn),
      fun hne => by simp [hst] at hne⟩

/-- Settles O48: by the shape of the step, with `EffectShape.zm_eq` for the commands that do not write ZM. -/
theorem onlyFourCommandsWriteZm : Obligations.OnlyFourCommandsWriteZm := by
  intro s t h hne
  cases step_shape h with
  | reset hr => exact .inr hr
  | completes i hi =>
    refine .inl ⟨i, hi, ?_⟩
    by_contra hw
    exact hne ((effect_shape i s.advance).zm_eq (by simpa using hw))
  | illegal => exact absurd rfl hne
  | port _ _ _ hp =>
    obtain ⟨-, hzm, -⟩ := hp.kept
    exact absurd hzm hne

/-- Settles O49: by the shape of the step, with `EffectShape.reg_eq` and `EffectShape.regWritten` for a completing
command. -/
theorem onlyTheDestinationRegisterChanges : Obligations.OnlyTheDestinationRegisterChanges := by
  intro s t r h hreset
  cases step_shape h with
  | reset hr => exact absurd hr hreset
  | completes i hi =>
    have hshape := effect_shape i s.advance
    refine ⟨fun hne => ⟨i, hi, ?_⟩, fun hw => hshape.regWritten hw⟩
    by_contra hd
    obtain ⟨hreg, hmark⟩ := hshape.reg_eq hd
    simp [hreg, hmark] at hne
  | illegal => simp
  | port _ _ _ hp =>
    obtain ⟨hv, -, -⟩ := hp.kept
    simp [State.reg, State.regWritten, hv]

/-- Settles O55: the strict machine faults exactly where `stepReadsWritten` is false (`strictStep_fault_iff`), and that
is where the completing command has an unwritten source (`readsWritten_eq_false_iff`). -/
theorem strictMachineStopsOnUnwrittenReads : Obligations.StrictMachineStopsOnUnwrittenReads := by
  intro s
  obtain ⟨t, ht⟩ := exists_step_eq_next s
  refine ⟨fun hr => ⟨t, strictStep_of_readsWritten hr ht, ht⟩, ?_⟩
  simp only [strictStep_fault_iff, stepReadsWritten_eq_false_iff, readsWritten_eq_false_iff]

/-- Settles O14: the fields of `State.resetOf`; that every register is unwritten is `State.regWritten_resetOf`. -/
theorem resetStateHasSpecValues : Obligations.ResetStateHasSpecValues :=
  ⟨rfl, fun n => ⟨rfl, rfl, rfl, rfl, Status.word_clear, State.regWritten_resetOf n, rfl, rfl, rfl⟩⟩

/-- Settles O15: FAIL and ILL are single bits (`Status.getLsbD_word`), LANE is bits 13:8, and the other fields lie where
`Status.extractLsb'_word_eq_zero` finds zeros. -/
theorem statusWordLayout : Obligations.StatusWordLayout := fun st =>
  ⟨st.getLsbD_word 0, st.getLsbD_word 1, st.extractLsb'_word_eq_zero (by decide), st.extractLsb'_word_lane,
    st.extractLsb'_word_eq_zero (by decide), st.extractLsb'_word_eq_zero (by decide)⟩

/-- Settles O44: `inv_resetOf`. -/
theorem invariantHoldsAtReset : Obligations.InvariantHoldsAtReset := inv_resetOf

end Sys2Proof.Proofs
end

section
/-! The payload on its way through VIN and VOUT, and the response bus (20_memory.md R51, R52, R55). -/

namespace Sys2Proof.Vec

open Sys2Proof

theorem lanewise1_id {n : Nat} {x : Vec} (hx : x.length = n) : lanewise1 n id x = x := tab_lane hx

end Sys2Proof.Vec

namespace Sys2Proof.Machine

open Sys2Proof

@[simp] theorem State.din_accept (s : State) (c : Command) : (s.accept c).din = c.data := rfl

/-- `rsp_data` while a response waits (44_host_port.md R200). -/
theorem State.rspData_of_rsp {s : State} {r : Response} (h : s.rsp = some r) :
    s.rspData = some (Vec.image s.n r.data) := by
  simp [State.rspData, h]

theorem State.rspData_complete (s : State) (dout : Vec) :
    (s.complete dout).rspData = some (Vec.image s.n dout) :=
  rspData_of_rsp (rsp_complete s dout)

theorem Edge.image_command (n : Nat) (e : Edge) : Vec.image n (e.command n).data = e.bus n :=
  Vec.image_ofImage (e.bus n)

/-- VIN writes a payload of N bytes as it was driven (44_host_port.md R206). -/
theorem exec_vin_accept (d : VReg) (s : State) {c : Command} (hc : c.data.length = s.n) :
    exec (.vin d) (s.accept c) =
      .next (((s.accept c).writeReg d c.data).complete (Vec.bcast s.n 0x00)) := by
  have hx : Vec.lanewise1 s.n id c.data = c.data := Vec.lanewise1_id hc
  simp [exec_eq, effect, doutOf, hx]

/-- VOUT responds with the register and changes no state (44_host_port.md R207). -/
theorem exec_vout (a : VReg) (s : State) : exec (.vout a) s = .next (s.complete (s.reg a)) := exec_eq (.vout a) s

end Sys2Proof.Machine
end

section
/-! The statements about the byte order of the buses (20_memory.md). -/

namespace Sys2Proof.Proofs

open Sys2Proof Sys2Proof.Machine

/-- Settles O58: VIN leaves the payload in the register (`exec_vin_accept`), VOUT makes it DOUT (`exec_vout`), and the
image of the payload's lanes is the bus they were cut from (`Edge.image_command`). -/
theorem payloadComesBackOnTheBus : Obligations.PayloadComesBackOnTheBus := by
  intro s e r
  refine ⟨_, _, exec_vin_accept r s (State.length_command s.n e), exec_vout r _, rfl, ?_⟩
  rw [State.rspData_complete, State.reg_complete, State.reg_writeReg_self]
  exact congrArg some (Edge.image_command s.n e)

/-- Settles O57: `rsp_data` is the image of DOUT (`State.rspData_of_rsp`), whose bits [8k+7:8k] are lane k
(`Vec.extract_image`). -/
theorem responseBusCarriesDout : Obligations.ResponseBusCarriesDout := by
  intro s r h
  exact ⟨Vec.image s.n r.data, State.rspData_of_rsp h, fun _ hk => Vec.extract_image r.data hk⟩

end Sys2Proof.Proofs
end

section
/-! The decoder as a list of conditions (30_encoding.md R77): the opcode table, the fields a format uses, and which
fields a command is built from. -/

namespace Sys2Proof.Laws.FieldsRoundTrip

open Sys2Proof

/-- The lemmas of the family together: the fields of every command decode to it. -/
theorem all : ∀ i : Instr, Statement i
  | .nop => nop
  | .vin d => vin d
  | .vout a => vout a
  | .vbcast d imm => vbcast d imm
  | .vcmpeq d a imm => vcmpeq d a imm
  | .vcmpge d a imm => vcmpge d a imm
  | .vcmple d a imm => vcmple d a imm
  | .vcmpgt d a imm => vcmpgt d a imm
  | .vand d a b => vand d a b
  | .vor d a b => vor d a b
  | .vadd d a b => vadd d a b
  | .vsub d a b => vsub d a b
  | .vblend d m a b => vblend d m a b
  | .vldpt d => vldpt d
  | .vshuf d t ix => vshuf d t ix
  | .vzmask a => vzmask a
  | .vffs => vffs
  | .vchk a => vchk a
  | .clrst => clrst
  | .vcls d a v => vcls d a v
  | .vclsh d a v => vclsh d a v
  | .vdec d a v => vdec d a v

end Sys2Proof.Laws.FieldsRoundTrip

namespace Sys2Proof

/-! ## The opcode table (R76) -/

@[simp] theorem Opcode.ofNumber_number (o : Opcode) : Opcode.ofNumber o.number = some o := by
  cases o <;> rfl

theorem Opcode.ofNumber_eq_some_iff {n : BitVec 6} {o : Opcode} : Opcode.ofNumber n = some o ↔ o.number = n := by
  constructor
  · intro h
    simpa using List.find?_some h
  · rintro rfl
    exact o.ofNumber_number

theorem Opcode.number_injective : Function.Injective Opcode.number := fun o p h =>
  Option.some.inj (by rw [← o.ofNumber_number, h, p.ofNumber_number])

/-! ## The VAR field (R75) -/

theorem Variant.bits_of_ofBits {b : BitVec 2} {v : Variant} (h : Variant.ofBits b = some v) : v.bits = b := by
  unfold Variant.ofBits at h
  split_ifs at h with h0 h1 h2 <;> cases h
  exacts [h0.symm, h1.symm, h2.symm]

theorem Variant.ofBits_eq_none_iff {b : BitVec 2} : Variant.ofBits b = none ↔ b = 3 := by
  revert b
  decide

/-! ## The fields a format uses (R72) -/

/-- The fields of `f` that a format uses, and its OP; zero in the others. -/
def Fields.keep (u : FieldUse) (f : Fields) : Fields where
  op := f.op
  vd := if u.vd then f.vd else 0
  va := if u.va then f.va else 0
  vb := if u.vb then f.vb else 0
  vm := if u.vm then f.vm else 0
  rsv := 0
  var := if u.var then f.var else 0
  imm8 := if u.imm8 then f.imm8 else 0

theorem Fields.unusedZero_iff {f : Fields} {u : FieldUse} : f.unusedZero u = true ↔
    (u.vd = false → f.vd = 0) ∧ (u.va = false → f.va = 0) ∧ (u.vb = false → f.vb = 0) ∧ (u.vm = false → f.vm = 0) ∧
      f.rsv = 0 ∧ (u.var = false → f.var = 0) ∧ (u.imm8 = false → f.imm8 = 0) := by
  simp only [unusedZero, Bool.and_eq_true, Bool.or_eq_true, beq_iff_eq, and_assoc]
  grind

theorem Fields.keep_of_unusedZero {f : Fields} {u : FieldUse} (h : f.unusedZero u = true) : f.keep u = f := by
  obtain ⟨hvd, hva, hvb, hvm, hrsv, hvar, himm⟩ := unusedZero_iff.1 h
  cases f
  simp only [keep, mk.injEq, ite_eq_left_iff]
  grind

/-! ## The command an opcode builds -/

/-- The command has the opcode's fields: those its format uses as they are, the others zero (R72). -/
theorem Opcode.fields_of_build {o : Opcode} {f : Fields} {i : Instr} (ho : o.number = f.op)
    (h : o.build f = .ok i) : i.fields = f.keep o.format.uses := by
  unfold Fields.keep
  rw [← ho]
  cases o
  case vcls | vclsh | vdec =>
    cases hv : Variant.ofBits f.var with
    | none => simp [build, hv] at h
    | some v =>
      obtain rfl : _ = i := by simpa [build, hv] using h
      rw [← Variant.bits_of_ofBits hv]
      rfl
  all_goals
    obtain rfl := Except.ok.inj h
    rfl

/-- Only VAR = 3 keeps an opcode from building a command, where the format uses VAR (R75). -/
theorem Opcode.exists_build_eq_ok_iff {o : Opcode} {f : Fields} :
    (∃ i, o.build f = .ok i) ↔ ¬ (o.format = .fv ∧ f.var = 3) := by
  cases o
  case vcls | vclsh | vdec =>
    rw [← Variant.ofBits_eq_none_iff]
    cases hv : Variant.ofBits f.var <;> simp [build, hv, format]
  all_goals simp [build, format]

/-! ## The decoder (R77) -/

theorem Fields.decode_eq_ok_iff {f : Fields} {i : Instr} : f.decode = .ok i ↔
    ∃ o : Opcode, o.number = f.op ∧ f.unusedZero o.format.uses = true ∧ o.build f = .ok i := by
  simp only [← Opcode.ofNumber_eq_some_iff]
  cases ho : Opcode.ofNumber f.op with
  | none => simp [decode, ho]
  | some o => cases hz : f.unusedZero o.format.uses <;> simp [decode, ho, hz]

/-- The fields a word has are the fields of the command it spells: no bit of a legal word is dropped. -/
theorem Fields.fields_of_decode {f : Fields} {i : Instr} (h : f.decode = .ok i) : i.fields = f := by
  obtain ⟨o, ho, hz, hb⟩ := decode_eq_ok_iff.1 h
  rw [Opcode.fields_of_build ho hb, keep_of_unusedZero hz]

theorem decode_encode (i : Instr) : decode (encode i) = .ok i := by
  rw [decode, encode, Fields.ofWord_toWord, Laws.FieldsRoundTrip.all i]

theorem encode_of_decode {w : Word} {i : Instr} (h : decode w = .ok i) : encode i = w := by
  rw [encode, Fields.fields_of_decode h, Fields.toWord_ofWord]

theorem decode_eq_ok_iff {w : Word} {i : Instr} : decode w = .ok i ↔ w = encode i :=
  ⟨fun h => (encode_of_decode h).symm, fun h => h ▸ decode_encode i⟩

/-- OP of a command's word is the number of its opcode (R76). -/
theorem extractLsb'_encode_op (i : Instr) : (encode i).extractLsb' 26 6 = i.opcode.number := by
  have hop : (Fields.ofWord (encode i)).op = i.fields.op := by rw [encode, Fields.ofWord_toWord]
  rw [show (encode i).extractLsb' 26 6 = i.fields.op from hop]
  cases i <;> rfl

theorem Instr.opcode_eq_nop_iff {i : Instr} : i.opcode = .nop ↔ i = .nop := by
  cases i <;> simp [opcode]

theorem encode_nop : encode .nop = 0x00000000 := by decide

/-! ## The masks (R72) -/

/-- A field of the mask of a format: ones unless the format uses the field. -/
def fixedBits (n : Nat) (used : Bool) : BitVec n := if used then 0 else BitVec.allOnes n

theorem and_fixedBits_eq_zero_iff {n : Nat} (x : BitVec n) (used : Bool) :
    x &&& fixedBits n used = 0 ↔ (used = false → x = 0) := by
  cases used <;> simp [fixedBits]

/-- The mask column of R72 by the "fields used" column. -/
theorem Format.ofWord_mask (m : Format) : Fields.ofWord m.mask =
    { op := fixedBits 6 false, vd := fixedBits 3 m.uses.vd, va := fixedBits 3 m.uses.va, vb := fixedBits 3 m.uses.vb,
      vm := fixedBits 3 m.uses.vm, rsv := fixedBits 4 false, var := fixedBits 2 m.uses.var,
      imm8 := fixedBits 8 m.uses.imm8 } := by
  cases m <;> decide

theorem Fields.ofWord_and (w m : Word) : ofWord (w &&& m) =
    { op := (ofWord w).op &&& (ofWord m).op, vd := (ofWord w).vd &&& (ofWord m).vd,
      va := (ofWord w).va &&& (ofWord m).va, vb := (ofWord w).vb &&& (ofWord m).vb,
      vm := (ofWord w).vm &&& (ofWord m).vm, rsv := (ofWord w).rsv &&& (ofWord m).rsv,
      var := (ofWord w).var &&& (ofWord m).var, imm8 := (ofWord w).imm8 &&& (ofWord m).imm8 } := by
  simp [ofWord, BitVec.extractLsb'_and]

theorem Fields.ofWord_injective : Function.Injective ofWord :=
  Function.LeftInverse.injective toWord_ofWord

theorem Fields.toWord_bare (o : Opcode) : (bare o).toWord = o.number ++ (0#26) := by
  cases o <;> decide

/-- R77's second test by the mask column of R72: the bits the mask fixes are those of OP and of the unused fields. -/
theorem and_mask_eq_iff {w : Word} {o : Opcode} (ho : o.number = (Fields.ofWord w).op) :
    w &&& o.format.mask = o.number ++ (0#26) ↔ (Fields.ofWord w).unusedZero o.format.uses = true := by
  have hop : o.number &&& fixedBits 6 false = o.number := BitVec.and_allOnes
  rw [← Fields.ofWord_injective.eq_iff, ← Fields.toWord_bare, Fields.ofWord_toWord, Fields.ofWord_and,
    Format.ofWord_mask, Fields.unusedZero_iff]
  simp only [Fields.bare, Fields.mk.injEq, and_fixedBits_eq_zero_iff, ← ho, hop, true_and, forall_const]

/-- R77 as three conditions on the word: an opcode, the mask of its format, and VAR. -/
def LegalByMask (w : Word) : Prop :=
  ∃ o : Opcode, o.number = w.extractLsb' 26 6 ∧ w &&& o.format.mask = o.number ++ (0#26) ∧
    ¬ (o.format = .fv ∧ w.extractLsb' 8 2 = 3#2)

/-- The decoder, which tests fields, passes the words that the mask column passes. -/
theorem exists_decode_eq_ok_iff {w : Word} : (∃ i, decode w = .ok i) ↔ LegalByMask w := by
  constructor
  · rintro ⟨i, hi⟩
    obtain ⟨o, ho, hz, hb⟩ := Fields.decode_eq_ok_iff.1 hi
    exact ⟨o, ho, (and_mask_eq_iff ho).2 hz, Opcode.exists_build_eq_ok_iff.1 ⟨i, hb⟩⟩
  · rintro ⟨o, ho, hm, hv⟩
    obtain ⟨i, hb⟩ := Opcode.exists_build_eq_ok_iff (f := Fields.ofWord w).2 hv
    exact ⟨i, Fields.decode_eq_ok_iff.2 ⟨o, ho, (and_mask_eq_iff ho).1 hm, hb⟩⟩

/-- `SpellsNoCommand` (60_exceptions.md R302) is the negation of R77's conditions: an opcode number is assigned to one
opcode only. -/
theorem not_spellsNoCommand_iff {w : Word} : ¬ Safety.SpellsNoCommand w ↔ LegalByMask w := by
  constructor
  · intro h
    obtain ⟨hop, hrest⟩ := not_or.1 h
    obtain ⟨hmask, hvar⟩ := not_or.1 hrest
    obtain ⟨o, ho⟩ : ∃ o : Opcode, o.number = w.extractLsb' 26 6 := by simpa using hop
    refine ⟨o, ho, ?_, fun hv => hvar ⟨o, ho, hv⟩⟩
    by_contra hm
    exact hmask ⟨o, ho, hm⟩
  · rintro ⟨o, ho, hm, hv⟩ (hop | ⟨p, hp, hmask⟩ | ⟨p, hp, hvar⟩)
    · exact hop o ho
    · obtain rfl := Opcode.number_injective (hp.trans ho.symm)
      exact hmask hm
    · obtain rfl := Opcode.number_injective (hp.trans ho.symm)
      exact hv hvar

end Sys2Proof
end

section
/-! The assembler on terms (30_encoding.md R81, R82): an operand in range is an argument of its kind, and a mnemonic
builds a command from arguments of its kinds. -/

namespace Sys2Proof.Assembler

open Sys2Proof

/-- The kind of an argument. -/
def Arg.kind : Arg → OperandKind
  | .reg _ => .reg
  | .imm _ => .imm
  | .var _ => .var

theorem exists_argOf {o : Operand} (h : o.inRange = true) : ∃ x, argOf o = some x ∧ x.kind = o.kind := by
  cases o with
  | reg n => exact ⟨.reg ⟨n, by simpa [Operand.inRange] using h⟩, by simpa [argOf, Operand.inRange] using h, rfl⟩
  | imm x => exact ⟨.imm (byte x), by simpa [argOf, Operand.inRange] using h, rfl⟩
  | var v => exact ⟨.var v, rfl, rfl⟩

theorem exists_mapM_argOf {os : List Operand} (h : os.all Operand.inRange = true) :
    ∃ xs, os.mapM argOf = some xs ∧ xs.map Arg.kind = os.map Operand.kind := by
  induction os with
  | nil => exact ⟨[], rfl, rfl⟩
  | cons o os ih =>
    obtain ⟨ho, hos⟩ := (Bool.and_eq_true _ _).mp h
    obtain ⟨x, hx, hk⟩ := exists_argOf ho
    obtain ⟨xs, hxs, hks⟩ := ih hos
    exact ⟨x :: xs, by simp [hx, hxs], by simp [hk, hks]⟩

/-! ## Arguments by their kinds -/

section ArgumentShapes

variable {P : List Arg → Prop} {Q : Arg → Prop} {k : OperandKind} {ks : List OperandKind}

theorem forall_args_nil : (∀ xs, xs.map Arg.kind = [] → P xs) ↔ P [] := by
  simp

theorem forall_args_cons : (∀ xs, xs.map Arg.kind = k :: ks → P xs) ↔
    ∀ x, x.kind = k → ∀ xs, xs.map Arg.kind = ks → P (x :: xs) := by
  refine ⟨fun h x hx xs hxs => h _ (by simp [hx, hxs]), fun h xs hxs => ?_⟩
  obtain ⟨y, ys, rfl, hy, hys⟩ := List.map_eq_cons_iff.1 hxs
  exact h y hy ys hys

theorem forall_kind_reg : (∀ x : Arg, x.kind = .reg → Q x) ↔ ∀ r, Q (.reg r) :=
  ⟨fun h r => h _ rfl, fun h x hx => by cases x <;> cases hx; exact h _⟩

theorem forall_kind_imm : (∀ x : Arg, x.kind = .imm → Q x) ↔ ∀ b, Q (.imm b) :=
  ⟨fun h b => h _ rfl, fun h x hx => by cases x <;> cases hx; exact h _⟩

theorem forall_kind_var : (∀ x : Arg, x.kind = .var → Q x) ↔ ∀ v, Q (.var v) :=
  ⟨fun h v => h _ rfl, fun h x hx => by cases x <;> cases hx; exact h _⟩

end ArgumentShapes

/-- Every mnemonic builds a command from arguments of the kinds in its row of R81 or R82. -/
theorem isSome_build (m : Mnemonic) : ∀ xs, xs.map Arg.kind = m.operandKinds → (build m xs).isSome = true := by
  rcases m with o | _ | _ | _
  · cases o
    all_goals
      simp only [Mnemonic.operandKinds, Opcode.operandKinds, forall_args_nil, forall_args_cons, forall_kind_reg,
        forall_kind_imm, forall_kind_var]
      intros
      rfl
  all_goals
    simp only [Mnemonic.operandKinds, forall_args_nil, forall_args_cons, forall_kind_reg]
    intros
    rfl

theorem isSome_command_iff {l : AsmLine} : (command l).isSome = true ↔ l.wf = true := by
  cases hwf : l.wf with
  | false => simp [command, hwf]
  | true =>
    obtain ⟨hkinds, hrange⟩ := (Bool.and_eq_true _ _).mp hwf
    obtain ⟨xs, hxs, hks⟩ := exists_mapM_argOf hrange
    have hbuild := isSome_build l.mnemonic xs (hks.trans (beq_iff_eq.1 hkinds))
    simp [command, hwf, hxs, hbuild]

end Sys2Proof.Assembler
end

section
/-! The effect of a command that writes one register, in the terms of Sys2Proof/Safety.lean, and the commands that the
pseudo-instructions of R82 expand to. -/

namespace Sys2Proof.Safety

open Sys2Proof Sys2Proof.Machine

/-- Writing N lanes to `d` and completing with zero DOUT changes nothing else. -/
theorem writesLanes_complete_writeReg (s : State) (d : VReg) {x : Vec} {f : Nat → Byte} (hx : x.length = s.n)
    (hf : ∀ k, k < s.n → x.lane k = f k) :
    WritesLanes s ((s.writeReg d x).complete (Vec.bcast s.n 0x00)) d f where
  holds := by simpa [Holds] using ⟨hx, hf⟩
  others r hr := ⟨s.reg_writeReg_ne x hr, s.regWritten_writeReg_ne x hr⟩
  zm := rfl
  status := rfl
  completed := ⟨by rw [zeros, ← Vec.bcast_eq_replicate]; rfl, rfl, rfl, rfl, rfl, rfl⟩

/-- VOR of a register with itself copies it (R147). -/
theorem exists_exec_vor_self (d a : VReg) (s : State) :
    ∃ t, exec (.vor d a a) s = .next t ∧ WritesLanes s t d fun k => (s.reg a).lane k :=
  ⟨_, exec_eq (.vor d a a) s,
    writesLanes_complete_writeReg s d (by simp) fun k hk => by simp [hk, laneOr]⟩

/-- VBCAST writes its immediate to every lane (R141). -/
theorem exists_exec_vbcast (d : VReg) (b : Byte) (s : State) :
    ∃ t, exec (.vbcast d b) s = .next t ∧ WritesLanes s t d fun _ => b :=
  ⟨_, exec_eq (.vbcast d b) s, writesLanes_complete_writeReg s d (by simp) fun k hk => by simp [hk]⟩

end Sys2Proof.Safety

namespace Sys2Proof.Assembler

open Sys2Proof

theorem mapM_argOf_regs (rs : List VReg) : (rs.map fun r => Operand.reg r.val).mapM argOf = some (rs.map .reg) := by
  induction rs with
  | nil => rfl
  | cons r rs ih => simp [argOf, ih]

/-- A line of registers, as many as its mnemonic takes, gives the command its mnemonic builds from them. -/
theorem command_regs {m : Mnemonic} {rs : List VReg} (h : m.operandKinds = rs.map fun _ => .reg) :
    command ⟨m, rs.map fun r => .reg r.val⟩ = build m (rs.map .reg) := by
  have hwf : AsmLine.wf ⟨m, rs.map fun r => .reg r.val⟩ = true := by
    simp [AsmLine.wf, h, Operand.kind, Operand.inRange, Function.comp_def]
  rw [command, if_pos hwf, mapM_argOf_regs]
  rfl

end Sys2Proof.Assembler
end

section
/-! The statements about the encoding of commands and about its assembly language (30_encoding.md). -/

namespace Sys2Proof.Proofs

open Sys2Proof Sys2Proof.Safety

/-- Settles O2: a word has the fields it is made of (`Fields.ofWord_toWord`), and the fields of each command decode to
it (`Laws.FieldsRoundTrip.all`). -/
theorem decodeEncodeRoundTrip : Obligations.DecodeEncodeRoundTrip := decode_encode

/-- Settles O3: the command built from a word has that word's fields, since the fields its format does not use are zero
(`Fields.fields_of_decode`). -/
theorem encodeDecodeRoundTrip : Obligations.EncodeDecodeRoundTrip := fun _ _ => encode_of_decode

/-- Settles O4: both sides say that the word has an opcode whose mask and VAR it meets. -/
theorem legalExactlyByMask : Obligations.LegalExactlyByMask := fun _ =>
  exists_decode_eq_ok_iff.trans not_spellsNoCommand_iff.symm

/-- Settles O5: NOP's one word is its encoding, and a command whose word has OP = 0 is NOP. -/
theorem nopHasExactlyOneEncoding : Obligations.NopHasExactlyOneEncoding := by
  refine ⟨fun w => by rw [decode_eq_ok_iff, encode_nop], fun w hop hw => ?_⟩
  cases hd : decode w with
  | error x => exact ⟨x, rfl⟩
  | ok i =>
    have hi := encode_of_decode hd
    have hnum : i.opcode.number = Opcode.nop.number := by
      rw [← extractLsb'_encode_op, hi]
      exact hop
    obtain rfl := Instr.opcode_eq_nop_iff.1 (Opcode.number_injective hnum)
    exact absurd (hi.symm.trans encode_nop) hw

/-- Settles O1: ten closed words, each decoded by evaluation. -/
theorem specWordsDecode : Obligations.SpecWordsDecode := by
  refine ⟨?_, ?_, ?_, ?_, ?_, ?_, ?_, ?_, ?_, ?_⟩ <;> decide

/-- Settles O7: the range check makes the arguments, of the operands' kinds, and every mnemonic builds a command from
the kinds of its row (`Assembler.isSome_command_iff`). -/
theorem assemblerAcceptsWellFormedLines : Obligations.AssemblerAcceptsWellFormedLines := fun _ =>
  Assembler.isSome_command_iff

/-- Settles O6: closed lines, each assembled by evaluation. -/
theorem specLinesAssemble : Obligations.SpecLinesAssemble := by
  refine ⟨?_, ?_, ?_, ?_, ?_, ?_, ?_, ?_, ?_⟩ <;> decide

/-- Settles O8: each line of registers expands to one command (`Assembler.command_regs`), which writes the copy of `a`
(`exists_exec_vor_self`) or the constant (`exists_exec_vbcast`) and nothing else. -/
theorem pseudoInstructionsExpand : Obligations.PseudoInstructionsExpand := by
  intro d a s
  refine ⟨?_, ?_, ?_⟩
  · obtain ⟨t, ht, hw⟩ := exists_exec_vor_self d a s
    exact ⟨_, t, Assembler.command_regs (m := .vmov) (rs := [d, a]) rfl, rfl, ht, hw⟩
  · obtain ⟨t, ht, hw⟩ := exists_exec_vbcast d 0x00 s
    exact ⟨_, t, Assembler.command_regs (m := .vzero) (rs := [d]) rfl, rfl, ht, hw⟩
  · obtain ⟨t, ht, hw⟩ := exists_exec_vbcast d 0xFF s
    exact ⟨_, t, Assembler.command_regs (m := .vones) (rs := [d]) rfl, rfl, ht, hw⟩

end Sys2Proof.Proofs
end

section
/-! The character classes and their shifts (40_classifier.md R100 to R103). -/

namespace Sys2Proof

/-- The byte values of each class: the table of R100. -/
def CharClass.Range : CharClass → Nat → Prop
  | .upper, v => 65 ≤ v ∧ v ≤ 90
  | .lower, v => 97 ≤ v ∧ v ≤ 122
  | .digit, v => 48 ≤ v ∧ v ≤ 57
  | .plus, v => v = 43
  | .slash, v => v = 47
  | .invalid, v => v ≤ 42 ∨ (44 ≤ v ∧ v ≤ 46) ∨ (58 ≤ v ∧ v ≤ 64) ∨ (91 ≤ v ∧ v ≤ 96) ∨ 123 ≤ v

/-- A byte lies in the range of its class: one branch of `charClass` for each row of R100's table. -/
theorem range_charClass (b : Byte) : (charClass b).Range b.toNat := by
  unfold charClass
  split_ifs <;> simp only [CharClass.Range, u8_eq_toNat] at * <;> omega

/-- "The ranges are disjoint" (R100), so a row's range decides every test of `charClass`. -/
theorem charClass_of_range {b : Byte} {c : CharClass} (h : c.Range b.toNat) : charClass b = c := by
  unfold charClass
  cases c <;> grind [CharClass.Range]

theorem shift_of_range {b : Byte} {c : CharClass} (h : c.Range b.toNat) : shift b = shiftConst c := by
  rw [shift, charClass_of_range h]

/-- "All five valid classes are defined to have a provably non-zero shift constant" (R102). -/
theorem shiftConst_eq_zero_iff {c : CharClass} : shiftConst c = 0x00 ↔ c = .invalid := by
  cases c <;> decide

theorem shift_eq_zero_iff {b : Byte} : shift b = 0x00 ↔ charClass b = .invalid := shiftConst_eq_zero_iff

/-- The base64 value of a byte of each class (the table of R103); for INVALID the byte itself. -/
def CharClass.value : CharClass → Nat → Nat
  | .upper, v => v - 65
  | .lower, v => v - 71
  | .digit, v => v + 4
  | .plus, _ => 62
  | .slash, _ => 63
  | .invalid, v => v

theorem toNat_add_shift_of_range {b : Byte} {c : CharClass} (h : c.Range b.toNat) :
    (b + shift b).toNat = c.value b.toNat := by
  rw [shift_of_range h, BitVec.toNat_add]
  cases c <;> simp [CharClass.Range, CharClass.value, shiftConst] at * <;> omega

/-- "Every decoded value of a valid byte is in 0 to 63" (R103). -/
theorem toNat_add_shift_le {b : Byte} (h : charClass b ≠ .invalid) : (b + shift b).toNat ≤ 63 := by
  have hr := range_charClass b
  rw [toNat_add_shift_of_range hr]
  cases hc : charClass b
  case invalid => exact absurd hc h
  all_goals simp only [hc, CharClass.Range, CharClass.value] at *; omega

end Sys2Proof
end

section
/-! The three datapaths, lane by lane (40_classifier.md R104 to R110). -/

namespace Sys2Proof

/-! ## Mask lanes -/

/-- A lane of a mask vector: 0xFF where `p` holds, 0x00 elsewhere (41_lane_primitives.md R140). -/
def maskLane (p : Prop) [Decidable p] : Byte := if p then 0xFF else 0x00

theorem laneAnd_maskLane (p : Prop) [Decidable p] (c : Byte) : laneAnd (maskLane p) c = if p then c else 0x00 := by
  by_cases hp : p
  · simpa [maskLane, laneAnd, hp] using BitVec.allOnes_and (x := c)
  · simp [maskLane, laneAnd, hp]

theorem laneBlend_maskLane (p : Prop) [Decidable p] (x y : Byte) :
    laneBlend (maskLane p) x y = if p then x else y := by
  by_cases hp : p <;> simp [maskLane, laneBlend, hp]

variable {n k : Nat} (x : Vec) (hk : k < n)
include hk

/-- A range mask is the AND of two compares (R104). -/
theorem lane_maskRange (lo hi : Byte) : (maskRange n lo hi x).lane k =
    maskLane (lo.toNat ≤ (x.lane k).toNat ∧ (x.lane k).toNat ≤ hi.toNat) := by
  have hge : laneGe lo (x.lane k) = maskLane (lo.toNat ≤ (x.lane k).toNat) := rfl
  have hle : laneLe hi (x.lane k) = maskLane ((x.lane k).toNat ≤ hi.toNat) := rfl
  simp only [maskRange, Vec.lane_lanewise1, Vec.lane_lanewise2, hk, hge, hle, laneAnd_maskLane]
  simp only [maskLane, ite_and]

/-- The five class masks are the ranges of the five valid classes (R104). -/
theorem lane_maskUpper : (maskUpper n x).lane k = maskLane (65 ≤ (x.lane k).toNat ∧ (x.lane k).toNat ≤ 90) :=
  lane_maskRange x hk 65 90

theorem lane_maskLower : (maskLower n x).lane k = maskLane (97 ≤ (x.lane k).toNat ∧ (x.lane k).toNat ≤ 122) :=
  lane_maskRange x hk 97 122

theorem lane_maskDigit : (maskDigit n x).lane k = maskLane (48 ≤ (x.lane k).toNat ∧ (x.lane k).toNat ≤ 57) :=
  lane_maskRange x hk 48 57

theorem lane_maskPlus : (maskPlus n x).lane k = maskLane ((x.lane k).toNat = 43) := Vec.lane_lanewise1 _ _ hk

theorem lane_maskSlash : (maskSlash n x).lane k = maskLane ((x.lane k).toNat = 47) := Vec.lane_lanewise1 _ _ hk

/-- A mask ANDed with a constant gives the constant where the mask is true (R105). -/
theorem lane_maskedConst {m : Vec} {p : Prop} [Decidable p] (hm : m.lane k = maskLane p) (c : Byte) :
    (maskedConst n m c).lane k = if p then c else 0x00 := by
  simp only [maskedConst, Vec.lane_lanewise2, Vec.lane_bcast, hk, hm, laneAnd_maskLane]

/-- A blend step overwrites where the mask is true (R107). -/
theorem lane_blendStep {m : Vec} {p : Prop} [Decidable p] (hm : m.lane k = maskLane p) (c : Byte) (s : Vec) :
    (blendStep n m c s).lane k = if p then c else s.lane k := by
  simp only [blendStep, Vec.lane_lanewise3, Vec.lane_bcast, hk, hm, laneBlend_maskLane]

/-- MASK: in a lane at most one of the five terms is not 0x00 (R105). -/
theorem lane_maskDatapath : (maskDatapath n x).lane k = shift (x.lane k) := by
  have hr := range_charClass (x.lane k)
  simp only [maskDatapath, Vec.lane_lanewise2, hk, lane_maskedConst hk (lane_maskUpper x hk),
    lane_maskedConst hk (lane_maskLower x hk), lane_maskedConst hk (lane_maskDigit x hk),
    lane_maskedConst hk (lane_maskPlus x hk), lane_maskedConst hk (lane_maskSlash x hk), shift]
  cases hc : charClass (x.lane k) <;> simp only [hc, CharClass.Range] at hr <;>
    simp (disch := omega) [if_pos, if_neg, laneOr, shiftConst]

/-- BLEND: at most one step overwrites, and only the sentinel 0x00 (R107). -/
theorem lane_blendDatapath : (blendDatapath n x).lane k = shift (x.lane k) := by
  have hr := range_charClass (x.lane k)
  simp only [blendDatapath, lane_maskedConst hk (lane_maskUpper x hk),
    lane_blendStep hk (lane_maskLower x hk), lane_blendStep hk (lane_maskDigit x hk),
    lane_blendStep hk (lane_maskPlus x hk), lane_blendStep hk (lane_maskSlash x hk), shift]
  cases hc : charClass (x.lane k) <;> simp only [hc, CharClass.Range] at hr <;>
    simp (disch := omega) only [if_pos, if_neg, shiftConst]

end Sys2Proof
end

section
/-! VADD's and VSUB's lanes as arithmetic on bytes, the bucket index of the PERM datapath, and what all three datapaths
compute (40_classifier.md R103, R108 to R111). -/

namespace Sys2Proof

/-- VADD's lane is addition modulo 256 (41_lane_primitives.md R148). -/
theorem laneAdd_eq (x y : Byte) : laneAdd x y = x + y := by
  apply BitVec.eq_of_toNat_eq
  simp only [laneAdd, toNat_byte, BitVec.toNat_add, u8_eq_toNat]
  omega

/-- VSUB's lane is subtraction modulo 256 (41_lane_primitives.md R149). -/
theorem laneSub_eq (x y : Byte) : laneSub x y = x - y := by
  apply BitVec.eq_of_toNat_eq
  simp only [laneSub, toNat_byte, BitVec.toNat_sub, u8_eq_toNat]
  omega

/-- The number of thresholds of `ts` strictly less than the byte (R108). -/
def bucketCount (ts : List Byte) (b : Byte) : Nat := ts.countP fun t => t.toNat < b.toNat

theorem bucketCount_le (ts : List Byte) (b : Byte) : bucketCount ts b ≤ ts.length := List.countP_le_length

theorem bucketCount_cons (t : Byte) (ts : List Byte) (b : Byte) :
    bucketCount (t :: ts) b = (if t.toNat < b.toNat then 1 else 0) + bucketCount ts b := by
  simp [bucketCount, List.countP_cons, Nat.add_comm]

theorem bucketCount_eq_length_filter (ts : List Byte) (b : Byte) :
    bucketCount ts b = ((ts.map BitVec.toNat).filter fun t => t < b.toNat).length := by
  rw [bucketCount, ← List.countP_eq_length_filter, List.countP_map]
  rfl

/-- "gt lane is 0xFF (= −1) where u8(x) > t, so this adds 1" (R108). -/
theorem laneSub_laneGt (i t b : Byte) :
    laneSub i (laneGt t b) = i + BitVec.ofNat 8 (if t.toNat < b.toNat then 1 else 0) := by
  rw [laneSub_eq]
  by_cases h : t.toNat < b.toNat
  · simp [laneGt, zext8, laneTrue, h, BitVec.sub_eq_add_neg]
  · simp [laneGt, zext8, laneFalse, h]

/-- The subtractions count, whatever the thresholds are: each adds 1 where its threshold is exceeded. -/
theorem lane_foldl_laneSub {n k : Nat} (hk : k < n) (x : Vec) (ts : List Byte) (idx : Vec) :
    (ts.foldl (fun idx t => Vec.lanewise2 n laneSub idx (Vec.lanewise1 n (laneGt t) x)) idx).lane k =
      idx.lane k + BitVec.ofNat 8 (bucketCount ts (x.lane k)) := by
  induction ts generalizing idx with
  | nil => simp [bucketCount]
  | cons t ts ih =>
    rw [List.foldl_cons, ih, Vec.lane_lanewise2 _ _ _ hk, Vec.lane_lanewise1 _ _ hk, laneSub_laneGt,
      bucketCount_cons, BitVec.ofNat_add, BitVec.add_assoc]

/-- The bucket index is the number of thresholds exceeded, from 0 to 9, so the count does not wrap (R108). -/
theorem toNat_lane_bucketIndex {n k : Nat} (hk : k < n) (x : Vec) :
    ((bucketIndex n x).lane k).toNat = bucketCount thresholds (x.lane k) := by
  have hle : bucketCount thresholds (x.lane k) ≤ 9 := bucketCount_le thresholds _
  rw [bucketIndex, lane_foldl_laneSub hk, Vec.lane_bcast _ hk]
  simp only [BitVec.ofNat_eq_ofNat, BitVec.zero_add, BitVec.toNat_ofNat]
  omega

/-- The band table (R109): in each of the ten bands the tests of the nine thresholds come out alike, and the PTAB entry
at their count is the shift. -/
theorem lane_ptab_bucketCount (b : Byte) : ptab.lane (bucketCount thresholds b) = shift b := by
  have hr := range_charClass b
  simp only [shift, bucketCount, thresholds, List.countP_cons, List.countP_nil, decide_eq_true_eq,
    BitVec.reduceToNat]
  cases hc : charClass b <;> simp only [hc, CharClass.Range] at hr
  case' invalid => obtain h | h | h | h | h := hr
  all_goals
    simp (disch := omega) only [if_pos, if_neg]
    rfl

/-- PERM: one lookup of the bucket index in PTAB (R108). -/
theorem lane_permDatapath {n k : Nat} (x : Vec) (hk : k < n) :
    (permDatapath n x).lane k = shift (x.lane k) := by
  have hidx := toNat_lane_bucketIndex hk x
  have hle : bucketCount thresholds (x.lane k) ≤ 9 := bucketCount_le thresholds _
  rw [permDatapath, Vec.lane_lanewise1 _ _ hk, laneLookup, u8_eq_toNat, hidx, if_pos (by omega),
    lane_ptab_bucketCount]

/-- VAR selects which datapath computes; the result is the Class Shift Vector (R110, R111). -/
theorem datapath_eq_classify (var : Variant) (n : Nat) (x : Vec) : datapath var n x = classify n x := by
  apply Vec.ext_lanes (length_datapath var n x) (Vec.length_lanewise1 n shift x)
  intro k hk
  rw [Vec.lane_lanewise1 _ _ hk]
  cases var
  · exact lane_maskDatapath x hk
  · exact lane_blendDatapath x hk
  · exact lane_permDatapath x hk

/-- A lane of the decoded batch is the byte plus its shift (R103). -/
theorem lane_decodeBatch {n k : Nat} (hk : k < n) (x : Vec) :
    (decodeBatch n x).lane k = x.lane k + shift (x.lane k) := by
  simp [decodeBatch, applyShift, classify, hk, laneAdd_eq]

end Sys2Proof
end

section
/-! VCLSH and VDEC: report a shift vector, then write where the report passes (40_classifier.md R113, R114). -/

namespace Sys2Proof.Machine

open Sys2Proof

/-- Whether it writes or not, ZM and STATUS are those of the report. -/
theorem zm_reportThenWrite (d : VReg) (sh x : Vec) (s : State) :
    (reportThenWrite d sh x s).zm = ⟨zmask s.n sh, true⟩ := by
  obtain ⟨-, e⟩ | ⟨-, e⟩ := reportThenWrite_cases d sh x s <;> simp [e, State.zm_report]

theorem status_reportThenWrite (d : VReg) (sh x : Vec) (s : State) :
    (reportThenWrite d sh x s).status = (s.report sh).status := by
  obtain ⟨-, e⟩ | ⟨-, e⟩ := reportThenWrite_cases d sh x s <;> simp [e]

theorem reportThenWrite_of_fail {d : VReg} {sh x : Vec} {s : State} (h : (s.report sh).status.fail = true) :
    reportThenWrite d sh x s = s.report sh := by simp [reportThenWrite, h]

theorem reportThenWrite_of_pass {d : VReg} {sh x : Vec} {s : State} (h : (s.report sh).status.fail = false) :
    reportThenWrite d sh x s = (s.report sh).writeReg d x := by simp [reportThenWrite, h]

end Sys2Proof.Machine

namespace Sys2Proof.Safety

open Sys2Proof Sys2Proof.Machine

/-- `zmask` is the zero mask (43_invalid_detector.md R180). -/
theorem isZeroMask_zmask (n : Nat) (x : Vec) : IsZeroMask n x (zmask n x) :=
  ⟨length_zmask n x, fun k hk => by simp [getElem?_zmask x hk]⟩

theorem completed_complete {s t : State} (h : SameShell s t) :
    Completed s (t.complete (Vec.bcast s.n 0x00)) (zeros s) where
  rsp := by rw [zeros, ← Vec.bcast_eq_replicate]; rfl
  inFlight := rfl
  position := congrArg (· + 1) h.position
  lanes := h.lanes
  pending := h.pending
  received := h.received

theorem Completed.n_eq {s t : State} {dout : Vec} (h : Completed s t dout) : t.n = s.n :=
  congrArg LaneCount.count h.lanes

/-- What a command does that reports the vector `sh` and writes `x` to `d` where no lane of `sh` is 0x00. -/
structure ReportsThenWrites (s t : State) (d : VReg) (sh x : Vec) : Prop where
  zeroMask : IsZeroMask s.n sh t.zm.value
  zmWritten : t.zm.written = true
  outcome : IsOutcome s t t.zm.value
  fail_iff : t.status.fail = true ↔ ∃ k, k < s.n ∧ sh.lane k = 0x00
  writes : t.status.fail = false → t.reg d = x ∧ t.regWritten d = true
  keeps : t.status.fail = true → t.v = s.v
  others : OthersKept s t d
  completed : Completed s t (zeros s)

theorem reportsThenWrites_complete (s : State) (d : VReg) (sh x : Vec) :
    ReportsThenWrites s ((reportThenWrite d sh x s).complete (Vec.bcast s.n 0x00)) d sh x where
  zeroMask := by simpa [zm_reportThenWrite] using isZeroMask_zmask s.n sh
  zmWritten := by simp [zm_reportThenWrite]
  outcome := by
    simpa [IsOutcome, status_reportThenWrite, zm_reportThenWrite, State.zm_report] using isOutcome_report sh s
  fail_iff := by simpa [status_reportThenWrite] using State.fail_report sh s
  writes h := by
    rw [State.status_complete, status_reportThenWrite] at h
    simp [reportThenWrite_of_pass h]
  keeps h := by
    rw [State.status_complete, status_reportThenWrite] at h
    simp [reportThenWrite_of_fail h, State.report_eq]
  others r hr := by
    obtain ⟨-, e⟩ | ⟨-, e⟩ := reportThenWrite_cases d sh x s <;>
      simp [e, State.reg_writeReg_ne _ x hr, State.regWritten_writeReg_ne _ x hr, State.report_eq]
  completed := completed_complete (sameShell_reportThenWrite d sh x s)

/-- Where the report passes, `d` holds the lanes of `x`. -/
theorem ReportsThenWrites.holds {s t : State} {d : VReg} {sh x : Vec} {f : Nat → Byte}
    (h : ReportsThenWrites s t d sh x) (hpass : t.status.fail = false) (hx : x.length = s.n)
    (hf : ∀ k, k < s.n → x.lane k = f k) : Holds t d f := by
  obtain ⟨hreg, hmark⟩ := h.writes hpass
  rw [Holds, hreg, h.completed.n_eq]
  exact ⟨hx, hf, hmark⟩

/-- A report of the Class Shift Vector fails exactly where some byte is INVALID (R102). -/
theorem ReportsThenWrites.fail_iff_invalid {s t : State} {d : VReg} {b x : Vec}
    (h : ReportsThenWrites s t d (classify s.n b) x) :
    t.status.fail = true ↔ ∃ k, k < s.n ∧ charClass (b.lane k) = .invalid := by
  refine h.fail_iff.trans (exists_congr fun k => and_congr_right fun hk => ?_)
  rw [classify, Vec.lane_lanewise1 _ _ hk, shift_eq_zero_iff]

/-! ## The composite commands, and VADD and VSUB -/

/-- VCLS writes the Class Shift Vector, by whichever datapath (R112). -/
theorem exists_exec_vcls (d a : VReg) (var : Variant) (s : State) :
    ∃ t, exec (.vcls d a var) s = .next t ∧ WritesLanes s t d fun k => shift ((s.reg a).lane k) :=
  ⟨_, exec_eq (.vcls d a var) s,
    writesLanes_complete_writeReg s d (by simp) fun k hk => by simp [datapath_eq_classify, classify, hk]⟩

/-- VCLSH reports the Class Shift Vector and writes it (R113). -/
theorem exists_exec_vclsh (d a : VReg) (var : Variant) (s : State) :
    ∃ t, exec (.vclsh d a var) s = .next t ∧
      ReportsThenWrites s t d (classify s.n (s.reg a)) (classify s.n (s.reg a)) :=
  ⟨_, exec_eq (.vclsh d a var) s, by
    simpa only [effect, doutOf, datapath_eq_classify] using reportsThenWrites_complete s d _ _⟩

/-- VDEC reports the Class Shift Vector and writes the decoded batch (R114). -/
theorem exists_exec_vdec (d a : VReg) (var : Variant) (s : State) :
    ∃ t, exec (.vdec d a var) s = .next t ∧
      ReportsThenWrites s t d (classify s.n (s.reg a)) (decodeBatch s.n (s.reg a)) :=
  ⟨_, exec_eq (.vdec d a var) s, by
    simpa only [effect, doutOf, datapath_eq_classify, decodeBatch] using reportsThenWrites_complete s d _ _⟩

/-- VADD adds lane by lane modulo 256 (41_lane_primitives.md R148). -/
theorem exists_exec_vadd (d a b : VReg) (s : State) :
    ∃ t, exec (.vadd d a b) s = .next t ∧ WritesLanes s t d fun k => laneAdd ((s.reg a).lane k) ((s.reg b).lane k) :=
  ⟨_, exec_eq (.vadd d a b) s, writesLanes_complete_writeReg s d (by simp) fun k hk => by simp [hk]⟩

/-- VSUB subtracts lane by lane modulo 256 (41_lane_primitives.md R149). -/
theorem exists_exec_vsub (d a b : VReg) (s : State) :
    ∃ t, exec (.vsub d a b) s = .next t ∧ WritesLanes s t d fun k => laneSub ((s.reg a).lane k) ((s.reg b).lane k) :=
  ⟨_, exec_eq (.vsub d a b) s, writesLanes_complete_writeReg s d (by simp) fun k hk => by simp [hk]⟩

end Sys2Proof.Safety
end

section
/-! Words of format FV by their fields (30_encoding.md R72, R75). -/

namespace Sys2Proof.Safety

open Sys2Proof

/-- A word written by the pattern of R72 decodes by the fields it is written from. -/
theorem decode_pattern (op : BitVec 6) (d a b m : BitVec 3) (var : BitVec 2) (imm : Byte) :
    decode (pattern op d a b m var imm) =
      Fields.decode { op := op, vd := d, va := a, vb := b, vm := m, rsv := 0, var := var, imm8 := imm } := by
  rw [← Fields.ofWord_toWord (Fields.mk op d a b m 0 var imm)]
  rfl

theorem regField_eq_bits (r : VReg) : regField r = VReg.bits r := by
  apply BitVec.eq_of_toNat_eq
  simp [regField, VReg.bits]

end Sys2Proof.Safety
end

section
/-! The statements about the classifier (40_classifier.md). -/

namespace Sys2Proof.Proofs

open Sys2Proof Sys2Proof.Machine Sys2Proof.Safety Sys2Proof.Laws.FieldsRoundTrip

/-- Settles O36: each subtraction adds 1 to the count (`toNat_lane_bucketIndex`), at most nine of them, and the count is
the index of the byte's band (`lane_ptab_bucketCount`). -/
theorem bucketIndexCountsThresholds : Obligations.BucketIndexCountsThresholds := by
  intro n k x hk
  rw [toNat_lane_bucketIndex hk]
  exact ⟨bucketCount_eq_length_filter thresholds _, bucketCount_le thresholds _, lane_ptab_bucketCount _⟩

/-- Settles O37: `datapath_eq_classify` for each variant. -/
theorem threeDatapathsAreClassify : Obligations.ThreeDatapathsAreClassify := fun n x =>
  ⟨datapath_eq_classify .mask n x, datapath_eq_classify .blend n x, datapath_eq_classify .perm n x⟩

/-- Settles O38: the three commands see VAR only through the datapath, which is `classify` for every VAR. -/
theorem variantChangesNoResult : Obligations.VariantChangesNoResult := by
  intro d a v w s
  simp only [exec_eq, effect, doutOf, datapath_eq_classify, and_self]

/-- Settles O39: the words by their fields (`decode_pattern`), the effect by `exists_exec_vcls`. -/
theorem vclsWritesTheShiftVector : Obligations.VclsWritesTheShiftVector := by
  intro d a
  simp only [decode_pattern, regField_eq_bits]
  exact ⟨⟨vcls d a .mask, vcls d a .blend, vcls d a .perm, rfl⟩, fun var s => exists_exec_vcls d a var s⟩

/-- Settles O40: the report and write of the Class Shift Vector (`exists_exec_vclsh`), whose zero lanes are the INVALID
bytes (`ReportsThenWrites.fail_iff_invalid`). -/
theorem vclshClassifiesAndReports : Obligations.VclshClassifiesAndReports := by
  intro d a
  simp only [decode_pattern, regField_eq_bits]
  refine ⟨⟨vclsh d a .mask, vclsh d a .blend, vclsh d a .perm, rfl⟩, fun var s => ?_⟩
  obtain ⟨t, ht, h⟩ := exists_exec_vclsh d a var s
  have hholds (hpass : t.status.fail = false) : Holds t d fun k => shift ((s.reg a).lane k) :=
    h.holds hpass (Vec.length_lanewise1 _ _ _) fun _ hk => Vec.lane_lanewise1 _ _ hk
  exact ⟨t, ht, h.zeroMask, h.zmWritten, h.outcome, h.fail_iff_invalid, hholds, h.keeps, h.others, h.completed⟩

/-- Settles O41: the report and write of the decoded batch (`exists_exec_vdec`); where the report passes every byte is
valid, so that byte plus shift is a base64 value (`toNat_add_shift_le`). -/
theorem vdecDecodesOrReports : Obligations.VdecDecodesOrReports := by
  intro d a
  simp only [decode_pattern, regField_eq_bits]
  refine ⟨⟨vdec d a .mask, vdec d a .blend, vdec d a .perm, rfl⟩, fun var s => ?_⟩
  obtain ⟨t, ht, h⟩ := exists_exec_vdec d a var s
  refine ⟨t, ht, h.zeroMask, h.zmWritten, h.outcome, h.fail_iff_invalid, fun hpass => ⟨?_, fun k hk => ?_⟩, h.keeps,
    h.others, h.completed⟩
  · refine h.holds hpass (length_applyShift _ _ _) fun k hk => ?_
    apply BitVec.eq_of_toNat_eq
    simp [lane_decodeBatch hk, BitVec.toNat_add]
  · have hvalid : charClass ((s.reg a).lane k) ≠ .invalid := fun hinv => by
      simp [h.fail_iff_invalid.2 ⟨k, hk, hinv⟩] at hpass
    rw [(h.writes hpass).1, lane_decodeBatch hk]
    exact toNat_add_shift_le hvalid

/-- Settles O42: a valid batch passes, VADD and VSUB see the same shift vector in `vs`, and subtraction undoes addition
modulo 256. -/
theorem shiftThenUnshiftRestoresTheBatch : Obligations.ShiftThenUnshiftRestoresTheBatch := by
  intro s vs vx vy vz var hx hy hlen hvalid
  obtain ⟨t, ht, hrep⟩ := exists_exec_vclsh vs vx var s
  obtain ⟨u, hu, hadd⟩ := exists_exec_vadd vy vx vs t
  obtain ⟨w, hw, hsub⟩ := exists_exec_vsub vz vy vs u
  have hun : u.n = s.n := hadd.completed.n_eq.trans hrep.completed.n_eq
  have hwn : w.n = s.n := hsub.completed.n_eq.trans hun
  have hpass : t.status.fail = false := by
    refine Bool.eq_false_iff.2 fun hf => ?_
    obtain ⟨k, hk, hinv⟩ := hrep.fail_iff_invalid.1 hf
    exact hvalid k hk hinv
  refine ⟨t, u, w, ht, hu, hw, hpass, ?_⟩
  obtain ⟨hulen, hulane, -⟩ := hadd.holds
  obtain ⟨hwlen, hwlane, -⟩ := hsub.holds
  refine Vec.ext_lanes (hwlen.trans hwn) hlen fun k hk => ?_
  calc (w.reg vz).lane k
      = laneSub ((u.reg vy).lane k) ((u.reg vs).lane k) := hwlane k (hwn ▸ hk)
    _ = laneSub (laneAdd ((t.reg vx).lane k) ((t.reg vs).lane k)) ((t.reg vs).lane k) := by
      rw [hulane k (hun ▸ hk), (hadd.others vs hy).1]
    _ = (t.reg vx).lane k := by rw [laneAdd_eq, laneSub_eq, BitVec.add_sub_cancel]
    _ = (s.reg vx).lane k := by rw [(hrep.others vx hx.symm).1]

/-- Settles O33: each range of the table decides the class (`charClass_of_range`), and the class the shift. -/
theorem shiftByCharacterRange : Obligations.ShiftByCharacterRange := by
  have row (c : CharClass) (b : Byte) (h : c.Range b.toNat) : charClass b = c ∧ shift b = shiftConst c :=
    ⟨charClass_of_range h, shift_of_range h⟩
  exact fun b => ⟨row .upper b, row .lower b, row .digit b, row .plus b, row .slash b, row .invalid b⟩

/-- Settles O34: no shift constant of a valid class is 0x00 (`shiftConst_eq_zero_iff`); the count is by evaluation. -/
theorem shiftIsZeroExactlyWhenInvalid : Obligations.ShiftIsZeroExactlyWhenInvalid :=
  ⟨fun _ => shift_eq_zero_iff, by decide⟩

/-- Settles O35: `toNat_add_shift_of_range` for the ranges of the five valid classes. -/
theorem shiftedByteIsItsBase64Value : Obligations.ShiftedByteIsItsBase64Value := fun _ =>
  ⟨toNat_add_shift_of_range (c := .upper), toNat_add_shift_of_range (c := .lower),
    toNat_add_shift_of_range (c := .digit), toNat_add_shift_of_range (c := .plus),
    toNat_add_shift_of_range (c := .slash)⟩

end Sys2Proof.Proofs
end

section
/-! The lanewise commands (41_lane_primitives.md R140): the byte each writes to lane k, as a function of lane k of the
registers it reads. -/

namespace Sys2Proof.Safety

open Sys2Proof Sys2Proof.Machine

/-- The commands that compute each lane of `d` by itself: lane k is `f k v`, where `v r` is lane k of register `r`
(R141 to R150, 42_permutation_lookup.md R170, 40_classifier.md R112). -/
inductive Lanewise : Instr → VReg → (Nat → (VReg → Byte) → Byte) → Prop
  | vbcast (d : VReg) (imm : Byte) : Lanewise (.vbcast d imm) d fun _ _ => imm
  | vcmpeq (d a : VReg) (imm : Byte) : Lanewise (.vcmpeq d a imm) d fun _ v => laneEq imm (v a)
  | vcmpge (d a : VReg) (imm : Byte) : Lanewise (.vcmpge d a imm) d fun _ v => laneGe imm (v a)
  | vcmple (d a : VReg) (imm : Byte) : Lanewise (.vcmple d a imm) d fun _ v => laneLe imm (v a)
  | vcmpgt (d a : VReg) (imm : Byte) : Lanewise (.vcmpgt d a imm) d fun _ v => laneGt imm (v a)
  | vand (d a b : VReg) : Lanewise (.vand d a b) d fun _ v => laneAnd (v a) (v b)
  | vor (d a b : VReg) : Lanewise (.vor d a b) d fun _ v => laneOr (v a) (v b)
  | vadd (d a b : VReg) : Lanewise (.vadd d a b) d fun _ v => laneAdd (v a) (v b)
  | vsub (d a b : VReg) : Lanewise (.vsub d a b) d fun _ v => laneSub (v a) (v b)
  | vblend (d m a b : VReg) : Lanewise (.vblend d m a b) d fun _ v => laneBlend (v m) (v a) (v b)
  | vldpt (d : VReg) : Lanewise (.vldpt d) d fun k _ => if k < 16 then ptab.lane k else 0x00
  | vcls (d a : VReg) (var : Variant) : Lanewise (.vcls d a var) d fun _ v => shift (v a)

/-- Every command that writes a register is lanewise, but VSHUF, VIN and the two reporters VCLSH and VDEC. -/
theorem exists_lanewise {i : Instr} {d : VReg} (hd : dest i = some d) (hshuf : ∀ t ix, i ≠ .vshuf d t ix)
    (hvin : i ≠ .vin d) (hr : reporter i = false) : ∃ f, Lanewise i d f := by
  cases i
  case nop | vout | vzmask | vffs | vchk | clrst => cases hd
  case vclsh | vdec => cases hr
  all_goals obtain rfl := Option.some.inj hd
  case vin => exact absurd rfl hvin
  case vshuf t ix => exact absurd rfl (hshuf t ix)
  all_goals exact ⟨_, by constructor⟩

variable {i : Instr} {d : VReg} {f : Nat → (VReg → Byte) → Byte}

/-- A lanewise command writes its lanes to `d`, and nothing else changes. -/
theorem Lanewise.exists_exec (h : Lanewise i d f) (s : State) :
    ∃ t, exec i s = .next t ∧ WritesLanes s t d fun k => f k fun r => (s.reg r).lane k := by
  cases h with
  | vbcast _ imm => exact exists_exec_vbcast d imm s
  | vadd _ a b => exact exists_exec_vadd d a b s
  | vsub _ a b => exact exists_exec_vsub d a b s
  | vcls _ a var => exact exists_exec_vcls d a var s
  | _ => exact ⟨_, exec_eq _ s, writesLanes_complete_writeReg s d (by simp) fun k hk => by simp [hk]⟩

theorem Lanewise.lane_reg_of_exec (h : Lanewise i d f) {s t : State} {k : Nat} (ht : exec i s = .next t)
    (hk : k < s.n) : (t.reg d).lane k = f k fun r => (s.reg r).lane k := by
  obtain ⟨t', ht', hw⟩ := h.exists_exec s
  obtain rfl := Host.Outcome.next.inj (ht'.symm.trans ht)
  obtain ⟨-, hlane, -⟩ := hw.holds
  exact hlane k (hw.completed.n_eq ▸ hk)

/-- Of the registers, a lane of the result sees only the sources. -/
theorem Lanewise.congr (h : Lanewise i d f) (k : Nat) {v w : VReg → Byte} (hvw : ∀ r ∈ sources i, v r = w r) :
    f k v = f k w := by
  cases h <;> simp_all [sources]

/-! ## VADD's and VSUB's lanes as numbers -/

theorem laneAdd_eq_ofNat (x y : Byte) : laneAdd x y = BitVec.ofNat 8 ((x.toNat + y.toNat) % 256) := by
  apply BitVec.eq_of_toNat_eq
  simp [laneAdd_eq, BitVec.toNat_add]

theorem laneSub_eq_ofNat (x y : Byte) : laneSub x y = BitVec.ofNat 8 ((256 + x.toNat - y.toNat) % 256) := by
  apply BitVec.eq_of_toNat_eq
  simp only [laneSub_eq, BitVec.toNat_sub, BitVec.toNat_ofNat]
  omega

end Sys2Proof.Safety
end

section
/-! The statements about the lane primitives (41_lane_primitives.md). -/

namespace Sys2Proof.Proofs

open Sys2Proof Sys2Proof.Machine Sys2Proof.Safety Sys2Proof.Laws.FieldsRoundTrip

/-- Settles O25: lane k of the result is a function of lane k of the sources (`Lanewise.lane_reg_of_exec`,
`Lanewise.congr`). -/
theorem lanewiseCommandsActLaneByLane : Obligations.LanewiseCommandsActLaneByLane := by
  intro i d s u s' u' k hd hlanes hk hsrc hshuf hvin hr hs hu
  obtain ⟨f, hf⟩ := exists_lanewise hd hshuf hvin hr
  have hku : k < u.n := by rwa [State.n, ← hlanes]
  calc (s'.reg d).lane k
      = f k fun r => (s.reg r).lane k := hf.lane_reg_of_exec hs hk
    _ = f k fun r => (u.reg r).lane k := hf.congr k hsrc
    _ = (u'.reg d).lane k := (hf.lane_reg_of_exec hu hku).symm

/-- Settles O20: the word by its fields (`decode_pattern`), the effect by `exists_exec_vbcast`. -/
theorem vbcastWritesEveryLane : Obligations.VbcastWritesEveryLane := by
  intro d imm
  rw [decode_pattern, regField_eq_bits]
  exact ⟨vbcast d imm, exists_exec_vbcast d imm⟩

/-- Settles O21: the words by their fields; the relation of each lane is the command's lane function
(`Lanewise.exists_exec`). -/
theorem comparesAreUnsignedMasks : Obligations.ComparesAreUnsignedMasks := by
  intro d a imm
  simp only [decode_pattern, regField_eq_bits]
  exact ⟨⟨vcmpeq d a imm, vcmpge d a imm, vcmple d a imm, vcmpgt d a imm⟩,
    fun s => ⟨(Lanewise.vcmpeq d a imm).exists_exec s, (Lanewise.vcmpge d a imm).exists_exec s,
      (Lanewise.vcmple d a imm).exists_exec s, (Lanewise.vcmpgt d a imm).exists_exec s⟩⟩

/-- Settles O22: the words by their fields, the effects by `Lanewise.exists_exec`. -/
theorem logicIsBitwise : Obligations.LogicIsBitwise := by
  intro d a b
  simp only [decode_pattern, regField_eq_bits]
  exact ⟨⟨vand d a b, vor d a b⟩,
    fun s => ⟨(Lanewise.vand d a b).exists_exec s, (Lanewise.vor d a b).exists_exec s⟩⟩

/-- Settles O23: the words by their fields; each lane is the sum or difference modulo 256 (`laneAdd_eq_ofNat`,
`laneSub_eq_ofNat`). -/
theorem arithmeticWrapsModulo256 : Obligations.ArithmeticWrapsModulo256 := by
  intro d a b
  simp only [decode_pattern, regField_eq_bits, ← laneAdd_eq_ofNat, ← laneSub_eq_ofNat]
  exact ⟨⟨vadd d a b, vsub d a b⟩,
    fun s => ⟨exists_exec_vadd d a b s, exists_exec_vsub d a b s⟩⟩

/-- Settles O24: the word by its fields, the effect by `Lanewise.exists_exec`. -/
theorem vblendSelectsByNonzero : Obligations.VblendSelectsByNonzero := by
  intro d m a b
  simp only [decode_pattern, regField_eq_bits]
  exact ⟨vblend d m a b, (Lanewise.vblend d m a b).exists_exec⟩

end Sys2Proof.Proofs
end

section
/-! The permutation lookup (42_permutation_lookup.md R170, R171): the table as VLDPT writes it, and the effect of VSHUF,
whose lane k may be any of the lanes 0 to 15 of the table register. -/

namespace Sys2Proof

/-- PTAB has 16 entries, and a lane above them reads 0x00: VLDPT's two cases are one lookup (R170). -/
theorem ite_lane_ptab (k : Nat) : (if k < 16 then ptab.lane k else 0x00) = ptab.lane k := by
  split_ifs with hk
  · rfl
  · have hlen : ptab.length ≤ k := Nat.le_of_not_lt hk
    exact (Vec.lane_of_length_le hlen).symm

end Sys2Proof

namespace Sys2Proof.Safety

open Sys2Proof Sys2Proof.Machine

/-- VLDPT writes PTAB, continued by 0x00 (R170). -/
theorem exists_exec_vldpt (d : VReg) (s : State) :
    ∃ t, exec (.vldpt d) s = .next t ∧ WritesLanes s t d fun k => ptab.lane k := by
  simpa only [ite_lane_ptab] using (Lanewise.vldpt d).exists_exec s

/-- VSHUF looks up each lane of the index register in the table register (R171). -/
theorem exists_exec_vshuf (d tb ix : VReg) (s : State) :
    ∃ t, exec (.vshuf d tb ix) s = .next t ∧ WritesLanes s t d fun k => laneLookup (s.reg tb) ((s.reg ix).lane k) :=
  ⟨_, exec_eq (.vshuf d tb ix) s,
    writesLanes_complete_writeReg s d (Vec.length_lanewise1 _ _ _) fun _ hk => Vec.lane_lanewise1 _ _ hk⟩

end Sys2Proof.Safety
end

section
/-! The statements about the permutation lookup (42_permutation_lookup.md). -/

namespace Sys2Proof.Proofs

open Sys2Proof Sys2Proof.Machine Sys2Proof.Safety Sys2Proof.Laws.FieldsRoundTrip

/-- Settles O26: the word by its fields (`decode_pattern`), the effect by `exists_exec_vldpt`; the sixteen bytes are
those of `ptab`. -/
theorem vldptLoadsTheTable : Obligations.VldptLoadsTheTable := by
  intro d
  rw [decode_pattern, regField_eq_bits]
  exact ⟨vldpt d, exists_exec_vldpt d⟩

/-- Settles O27: the word by its fields, the effect by `exists_exec_vshuf`; `laneLookup` has the bound of 16. -/
theorem vshufLooksUpSixteenLanes : Obligations.VshufLooksUpSixteenLanes := by
  intro d tb ix
  simp only [decode_pattern, regField_eq_bits]
  exact ⟨vshuf d tb ix, exists_exec_vshuf d tb ix⟩

end Sys2Proof.Proofs
end

section
/-! The commands of the detector (43_invalid_detector.md R183 to R186): each is its effect and a zero DOUT, and the
reporter outcome sees only STATUS and the mask. -/

namespace Sys2Proof.Machine.State

open Sys2Proof

/-- STATUS after an outcome depends on STATUS before it and on the mask, and on nothing else of the state (R182). -/
theorem status_outcome_congr {s t : State} (h : s.status = t.status) (z : LaneMask) :
    (s.outcome z).status = (t.outcome z).status := by
  cases hz : LaneMask.nonzero z <;> simp [outcome, hz, h]

@[simp] theorem v_report (x : Vec) (s : State) : (s.report x).v = s.v := by simp [report_eq]

end Sys2Proof.Machine.State

namespace Sys2Proof.Machine

open Sys2Proof

theorem exec_vzmask (a : VReg) (s : State) :
    exec (.vzmask a) s = .next ((s.writeZm (zmask s.n (s.reg a))).complete (Vec.bcast s.n 0x00)) :=
  exec_eq (.vzmask a) s

theorem exec_vffs (s : State) : exec .vffs s = .next ((s.outcome s.zm.value).complete (Vec.bcast s.n 0x00)) :=
  exec_eq .vffs s

theorem exec_vchk (a : VReg) (s : State) :
    exec (.vchk a) s = .next ((s.report (s.reg a)).complete (Vec.bcast s.n 0x00)) :=
  exec_eq (.vchk a) s

theorem exec_clrst (s : State) : exec .clrst s = .next (s.clearStatus.complete (Vec.bcast s.n 0x00)) :=
  exec_eq .clrst s

end Sys2Proof.Machine
end

section
/-! The statements about the invalid-byte detector (43_invalid_detector.md). -/

namespace Sys2Proof.Proofs

open Sys2Proof Sys2Proof.Machine Sys2Proof.Safety Sys2Proof.Laws.FieldsRoundTrip

/-- Settles O29: a mask of N bits, at most 64, has its least set bit in LANE's range (`isOutcome_outcome`). -/
theorem vffsReportsTheLowestSetBit : Obligations.VffsReportsTheLowestSetBit := by
  refine ⟨by decide, fun s hz => ⟨_, exec_vffs s, ?_, State.zm_outcome _ s, State.v_outcome _ s, ?_⟩⟩
  · exact isOutcome_outcome (hz ▸ s.n_le)
  · exact completed_complete (sameShell_effect .vffs s)

/-- Settles O30: a report leaves the zero mask in ZM (`State.zm_report`) and writes the outcome of that mask
(`isOutcome_report`). -/
theorem vchkReportsTheRegister : Obligations.VchkReportsTheRegister := by
  intro a
  rw [decode_pattern, regField_eq_bits]
  refine ⟨vchk a, fun s => ⟨_, exec_vchk a s, ?_, ?_, isOutcome_report (s.reg a) s, State.v_report _ s, ?_⟩⟩
  · simpa [State.zm_report] using isZeroMask_zmask s.n (s.reg a)
  · simp [State.zm_report]
  · exact completed_complete (sameShell_effect (.vchk a) s)

/-- Settles O28: the word by its fields (`decode_pattern`); the only write is that of the zero mask to ZM. -/
theorem vzmaskWritesTheZeroMask : Obligations.VzmaskWritesTheZeroMask := by
  intro a
  rw [decode_pattern, regField_eq_bits]
  exact ⟨vzmask a, fun s => ⟨_, exec_vzmask a s, isZeroMask_zmask s.n (s.reg a), rfl, rfl, rfl,
    completed_complete (sameShell_effect (.vzmask a) s)⟩⟩

/-- Settles O31: VFFS sees the mask that VZMASK left in ZM and a STATUS that VZMASK did not touch, so both sides write
the same outcome (`State.status_outcome_congr`); the response between them is overwritten. -/
theorem vchkIsVzmaskThenVffs : Obligations.VchkIsVzmaskThenVffs := by
  intro a s
  have hstatus : (s.report (s.reg a)).status =
      (((s.writeZm (zmask s.n (s.reg a))).complete (Vec.bcast s.n 0x00)).outcome (zmask s.n (s.reg a))).status :=
    State.status_outcome_congr (State.status_complete _ _).symm _
  exact ⟨_, _, _, exec_vzmask a s, exec_vffs _, exec_vchk a s, by simp, by simp [State.zm_report],
    by simp [hstatus], by simp [hstatus]⟩

/-- Settles O32: CLRST writes the three fields of STATUS and nothing else, and its response carries the cleared word
(`Status.word_clear`). -/
theorem clrstClearsStatus : Obligations.ClrstClearsStatus :=
  ⟨by decide, fun s => ⟨_, exec_clrst s, rfl, rfl, rfl, Status.word_clear, rfl, rfl,
    completed_complete (sameShell_effect .clrst s)⟩⟩

end Sys2Proof.Proofs
end

section
/-! The host port at one edge (44_host_port.md R200 to R203, R208): what its outputs say of the state, the step at each
edge that the handshake names, and what a step does to the responses. -/

namespace Sys2Proof.Machine

open Sys2Proof

variable {s t : State} {e : Edge}

/-! ## The outputs, and the payload in flight -/

theorem State.cmdReady_eq_true_iff {rst : Bool} :
    s.cmdReady rst = true ↔ rst = false ∧ s.inFlight = none ∧ s.rsp = none := by
  simp [State.cmdReady, and_assoc]

theorem State.rspValid_eq_true_iff {rst : Bool} : s.rspValid rst = true ↔ rst = false ∧ s.rsp.isSome = true := by
  simp [State.rspValid]

theorem State.cmdReady_of_inFlight {c : Command} (hf : s.inFlight = some c) (rst : Bool) : s.cmdReady rst = false := by
  simp [State.cmdReady, hf]

theorem State.rspValid_of_rsp_none (hs : s.rsp = none) (rst : Bool) : s.rspValid rst = false := by
  simp [State.rspValid, hs]

theorem State.din_of_inFlight {c : Command} (hf : s.inFlight = some c) : s.din = c.data := by simp [State.din, hf]

/-! ## The step at an edge -/

theorem step_of_nil (hp : s.pending = []) : step s = .next s := by simp [step, hp]

theorem step_of_cons {rest : List Edge} (hp : s.pending = e :: rest) :
    step s = stepEdge e { s with pending := rest } := by simp [step, hp]

theorem stepEdge_taken {r : Response} (hr : e.rst = false) (hs : s.rsp = some r) (hy : e.rspReady = true) :
    stepEdge e s = .next (s.take r) := by
  simp [stepEdge, State.edgeEvent, hr, hs, hy]

theorem stepEdge_untaken {r : Response} (hr : e.rst = false) (hs : s.rsp = some r) (hy : e.rspReady = false) :
    stepEdge e s = .next s := by
  simp [stepEdge, State.edgeEvent, hr, hs, hy]

theorem stepEdge_completed {c : Command} (hr : e.rst = false) (hs : s.rsp = none) (hf : s.inFlight = some c)
    (hd : e.done = true) : stepEdge e s = runWord c.word s := by
  simp [stepEdge, State.edgeEvent, hr, hs, hf, hd]

theorem stepEdge_accepted (hr : e.rst = false) (hs : s.rsp = none) (hf : s.inFlight = none) (hv : e.cmdValid = true) :
    stepEdge e s = .next (s.accept (e.command s.n)) := by
  simp [stepEdge, State.edgeEvent, hr, hs, hf, hv]

/-- A step that puts a command in flight is at an edge that offers it while `cmd_ready` is 1 (R201). -/
theorem offered_of_step {rest : List Edge} (hp : s.pending = e :: rest) (h : step s = .next t)
    (hf : s.inFlight = none) (ht : t.inFlight ≠ none) : e.cmdValid = true ∧ s.cmdReady e.rst = true := by
  obtain ⟨hnil, -⟩ | ⟨e', rest', hp', hcase⟩ := step_cases h
  · simp [hp] at hnil
  obtain ⟨rfl, -⟩ := List.cons.inj (hp.symm.trans hp')
  obtain ⟨-, rfl⟩ | ⟨r, -, -, -, rfl⟩ | ⟨c, -, -, hc, -⟩ | ⟨hr, hs, -, hv, -⟩ | ⟨-, -, rfl⟩ := hcase
  · exact absurd rfl ht
  · exact absurd hf ht
  · simp [hf] at hc
  · exact ⟨hv, State.cmdReady_eq_true_iff.2 ⟨hr, hf, hs⟩⟩
  · exact absurd hf ht

/-- While a response waits, a step at whose edge the host neither takes it nor resets only lets the edge go by. -/
theorem step_of_untaken {r : Response} (hs : s.rsp = some r)
    (h : ∀ e ∈ s.pending, e.rst = false ∧ e.rspReady = false) : step s = .next s.advance := by
  cases hp : s.pending with
  | nil => rw [step_of_nil hp, State.advance_of_nil hp]
  | cons e rest =>
    obtain ⟨hr, hy⟩ := h e (by simp [hp])
    rw [step_of_cons hp, State.advance_of_cons hp]
    exact stepEdge_untaken hr hs hy

/-- A run is its first step and then the rest of it. -/
theorem run_succ_of_step (h : step s = .next t) (k : Nat) :
    Host.Core.run core (k + 1) s = Host.Core.run core k t := by
  have hstep : Host.Core.step core s = .next t := h
  simp [Host.Core.run, hstep]

end Sys2Proof.Machine

namespace Sys2Proof.Safety

open Sys2Proof Sys2Proof.Machine

variable {s t : State} {dout : Vec}

/-! ## Steps that complete a command, and steps that do not -/

theorem doutOf_eq_zeros {i : Instr} (hi : ∀ a, i ≠ .vout a) (s : State) : doutOf i s = zeros s := by
  cases i with
  | vout a => exact absurd rfl (hi a)
  | _ => exact Vec.bcast_eq_replicate s.n 0x00

/-- Every command completes, with the DOUT of R204. -/
theorem completed_of_exec {i : Instr} (h : exec i s = .next t) : Completed s t (doutOf i s) := by
  obtain rfl := Host.Outcome.next.inj ((exec_eq i s).symm.trans h)
  have hshell := sameShell_effect i s
  exact ⟨rfl, rfl, congrArg (· + 1) hshell.position, hshell.lanes, hshell.pending, hshell.received⟩

/-- An illegal word completes with zero DOUT (30_encoding.md R77). -/
theorem completed_of_illegalCommand (h : illegalCommand s = .next t) : Completed s t (zeros s) := by
  obtain rfl := Host.Outcome.next.inj ((illegalCommand_eq s).symm.trans h)
  exact completed_complete (by constructor <;> rfl)

/-- The step at which the command in flight completes, whether its word is legal or not. -/
theorem completed_of_step {c : Command} (h : step s = .next t) (hc : nextCompletion s = some c) :
    ∃ dout, Completed s.advance t dout := by
  cases step_shape h with
  | reset hr => exact absurd hr (guards_of_nextCompletion hc).1
  | completes i => exact ⟨_, completed_of_exec (exec_eq i s.advance)⟩
  | illegal => exact ⟨_, completed_of_illegalCommand (illegalCommand_eq s.advance)⟩
  | port _ hn => simp [hn] at hc

/-- Where no command completes and there is no reset, only the ports move. -/
theorem portMove_of_step (h : step s = .next t) (hn : nextCompletion s = none) (hr : ¬ AtReset s) :
    PortMove s.advance t := by
  cases step_shape h with
  | reset hr' => exact absurd hr' hr
  | completes i hi => exact absurd hi (not_completes_of_none hn)
  | illegal hi => exact absurd hi (not_completesIllegal_of_none hn)
  | port _ _ _ hp => exact hp

/-- One response more, at the end of those taken and waiting (R203). -/
theorem Completed.responses (h : Completed s t dout) (hs : s.rsp = none) :
    t.received ++ t.rsp.toList = s.received ++ s.rsp.toList ++ [⟨t.status.word, dout⟩] := by
  simp [h.received, h.rsp, hs]

/-- The responses taken and waiting are the same: taking one moves it from RSP to the host (R202). -/
theorem PortMove.responses (h : PortMove s t) : t.received ++ t.rsp.toList = s.received ++ s.rsp.toList := by
  cases h with
  | taken r hr => simp [hr]
  | _ => rfl

theorem PortMove.lanes_position (h : PortMove s t) : t.lanes = s.lanes ∧ t.position = s.position := by
  cases h <;> exact ⟨rfl, rfl⟩

/-- With a command in flight and no response waiting, the ports do not move (R202). -/
theorem PortMove.eq_of_inFlight {c : Command} (h : PortMove s t) (hs : s.rsp = none) (hf : s.inFlight = some c) :
    t = s := by
  cases h with
  | quiet => rfl
  | taken r hr => simp [hs] at hr
  | accepted _ _ hf' => simp [hf] at hf'

theorem Inv.rsp_eq_none_of_inFlight {c : Command} (h : Inv s) (hf : s.inFlight = some c) : s.rsp = none :=
  h.oneAtATime.resolve_right (by simp [hf])

end Sys2Proof.Safety
end

section
/-! The statements about the host port (44_host_port.md). -/

namespace Sys2Proof.Proofs

open Sys2Proof Sys2Proof.Machine Sys2Proof.Safety Sys2Proof.Laws.FieldsRoundTrip

/-- Settles O19: RSP holds DOUT of the command (`completed_of_exec`), which is zero for all but VOUT
(`doutOf_eq_zeros`). -/
theorem doutIsZeroButForVout : Obligations.DoutIsZeroButForVout := by
  refine ⟨fun i s t h => ⟨?_, fun hi => ?_⟩, fun s t h => (completed_of_illegalCommand h).rsp⟩
  · rintro a rfl
    exact (completed_of_exec h).rsp
  · rw [← doutOf_eq_zeros hi s]
    exact (completed_of_exec h).rsp

/-- Settles O50: such a step is a move of the ports (`portMove_of_step`), which changes no register, and none at all
while a command is in flight (`PortMove.eq_of_inFlight`). -/
theorem registersChangeOnlyAtCompletion : Obligations.RegistersChangeOnlyAtCompletion := by
  intro s t h hn hr
  have hmove := portMove_of_step h hn hr
  obtain ⟨hv, hzm, hstatus⟩ := hmove.kept
  obtain ⟨hlanes, hposition⟩ := hmove.lanes_position
  refine ⟨⟨hlanes, hv, hzm, hstatus, hposition⟩, fun c hinv hf => ?_⟩
  have hs := hinv.rsp_eq_none_of_inFlight hf
  obtain rfl := hmove.eq_of_inFlight hs hf
  have hready := State.cmdReady_of_inFlight hf
  have hvalid := State.rspValid_of_rsp_none hs
  exact ⟨rfl, hf, rfl, fun rst => ⟨hready rst, hready rst, hvalid rst, hvalid rst⟩⟩

/-- Settles O51: a step that completes no command is a move of the ports (`PortMove.responses`), and one that does
finds RSP empty and fills it (`Completed.responses`). -/
theorem oneResponsePerCommandInOrder : Obligations.OneResponsePerCommandInOrder := by
  intro s t h hr
  refine ⟨fun hn => ?_, fun hsome => ?_⟩
  · have hmove := portMove_of_step h hn hr
    exact ⟨hmove.responses, hmove.lanes_position.2⟩
  · obtain ⟨c, hc⟩ := Option.ne_none_iff_exists'.1 hsome
    obtain ⟨-, hs, -⟩ := guards_of_nextCompletion hc
    obtain ⟨dout, hdone⟩ := completed_of_step h hc
    exact ⟨dout, hdone.responses hs, hdone.position⟩

/-- Settles O52, by induction on the number of steps: each lets one edge go by (`step_of_untaken`). -/
theorem untakenResponseBlocks : Obligations.UntakenResponseBlocks := by
  intro k
  induction k with
  | zero => exact fun _ _ _ _ => rfl
  | succ k ih =>
    intro s r hs h
    rw [run_succ_of_step (step_of_untaken hs h), ih s.advance r hs fun e he => h e (List.mem_of_mem_tail he)]
    simp [State.advance]

/-- Settles O9: the edge completes the command in flight (`stepEdge_completed`), and its word is run as the command it
decodes to (`runWord_ok`). -/
theorem stepRunsTheDecodedCommand : Obligations.StepRunsTheDecodedCommand := by
  intro s e rest c i hp hr hd hs hf hdec
  calc
    step s = stepEdge e { s with pending := rest } := step_of_cons hp
    _ = runWord c.word { s with pending := rest } := stepEdge_completed hr hs hf hd
    _ = exec i { s with pending := rest } := runWord_ok hdec _

/-- Settles O11: an offer that is ready is accepted (`stepEdge_accepted`) with the payload of `Edge.command`, and no
other edge puts a command in flight (`offered_of_step`). -/
theorem commandAcceptedWhenReady : Obligations.CommandAcceptedWhenReady := by
  intro s e rest hp hf
  refine ⟨fun ⟨hv, hready⟩ => ?_, fun hno => ?_⟩
  · obtain ⟨hr, -, hs⟩ := State.cmdReady_eq_true_iff.1 hready
    exact ⟨(e.command s.n).data, State.length_command s.n e, fun _ => State.lane_command e,
      (step_of_cons hp).trans (stepEdge_accepted hr hs hf hv)⟩
  · obtain ⟨t, ht⟩ := exists_step_eq_next s
    exact ⟨t, ht, by_contra fun hne => hno (offered_of_step hp ht hf hne)⟩

/-- Settles O12: the edge takes the response (`stepEdge_taken`), and RSP is then empty with nothing in flight. -/
theorem responseTakenWhenReady : Obligations.ResponseTakenWhenReady := by
  intro s e rest r hp hs hf hy hvalid
  obtain ⟨hr, -⟩ := State.rspValid_eq_true_iff.1 hvalid
  exact ⟨_, (step_of_cons hp).trans (stepEdge_taken hr hs hy), rfl, State.rspValid_of_rsp_none rfl false,
    State.cmdReady_eq_true_iff.2 ⟨rfl, hf, rfl⟩⟩

/-- Settles O16: NOP has no effect, and completes with zero DOUT (`completed_complete`). -/
theorem nopChangesNothing : Obligations.NopChangesNothing :=
  ⟨by decide, by decide, fun s => ⟨_, exec_eq .nop s, rfl, rfl, rfl, completed_complete (sameShell_effect .nop s)⟩⟩

/-- Settles O17: the word by its fields (`decode_pattern`); VIN writes the N lanes of DIN, the payload in flight. -/
theorem vinLoadsThePayload : Obligations.VinLoadsThePayload := by
  intro d
  rw [decode_pattern, regField_eq_bits]
  refine ⟨vin d, fun s c hf => ⟨_, exec_eq (.vin d) s, ?_⟩⟩
  rw [← State.din_of_inFlight hf]
  exact writesLanes_complete_writeReg s d (Vec.length_lanewise1 _ _ _) fun _ hk => Vec.lane_lanewise1 _ _ hk

/-- Settles O18: the word by its fields (`decode_pattern`); VOUT has no effect but its response (`exec_vout`). -/
theorem voutReturnsTheRegister : Obligations.VoutReturnsTheRegister := by
  intro a
  rw [decode_pattern, regField_eq_bits]
  exact ⟨vout a, fun s => ⟨_, exec_vout a s, rfl, rfl, rfl, completed_of_exec (exec_vout a s)⟩⟩

end Sys2Proof.Proofs
end

section
/-! Illegal words and the decoder (30_encoding.md R77, 60_exceptions.md R302). -/

namespace Sys2Proof.Safety

open Sys2Proof

/-- The words that R302 calls illegal are those that the decoder rejects. -/
theorem spellsNoCommand_iff_exists_error {w : Word} : SpellsNoCommand w ↔ ∃ x, decode w = .error x := by
  rw [← not_iff_not, not_spellsNoCommand_iff, ← exists_decode_eq_ok_iff]
  cases decode w <;> simp

end Sys2Proof.Safety
end

section
/-! The statements about the events and about no step stopping (60_exceptions.md). -/

namespace Sys2Proof.Proofs

open Sys2Proof Sys2Proof.Machine Sys2Proof.Safety

/-- Settles O10: the edge completes the command in flight (`stepEdge_completed`); the decoder rejects its word
(`spellsNoCommand_iff_exists_error`), so the step raises IllegalCommand, which sets ILL only, and completes with zero
DOUT. -/
theorem illegalWordSetsIllOnly : Obligations.IllegalWordSetsIllOnly := by
  intro s e rest c hp hr hd hs hf hw
  obtain ⟨x, hdec⟩ := spellsNoCommand_iff_exists_error.1 hw
  have hill := illegalCommand_eq { s with pending := rest }
  have hstep := calc
    step s = stepEdge e { s with pending := rest } := step_of_cons hp
    _ = runWord c.word { s with pending := rest } := stepEdge_completed hr hs hf hd
    _ = illegalCommand { s with pending := rest } := runWord_error hdec _
  exact ⟨_, hstep.trans hill, rfl, rfl, rfl, completed_of_illegalCommand hill⟩

/-- Settles O43: every event of an edge answers a next state, whether the word that completes is legal or not
(`exists_runWord_eq_next`). -/
theorem everyStepGoesOn : Obligations.EveryStepGoesOn := exists_step_eq_next

end Sys2Proof.Proofs
end

section
/-! The coming edges are no part of what a command reads or writes, and an edge at which nothing happens only goes by
(70_reset_and_hazards.md R400, R401, R407, 20_memory.md R57). -/

namespace Sys2Proof.Machine

open Sys2Proof

variable {s t : State} {e : Edge} {c : Command}

/-! ## The coming edges, and a command's meaning -/

theorem State.outcome_withPending (z : LaneMask) (s : State) (p : List Edge) :
    State.outcome z { s with pending := p } = { s.outcome z with pending := p } := by
  unfold State.outcome
  split <;> rfl

theorem State.report_withPending (x : Vec) (s : State) (p : List Edge) :
    State.report x { s with pending := p } = { s.report x with pending := p } :=
  State.outcome_withPending (zmask s.n x) (s.writeZm (zmask s.n x)) p

theorem reportThenWrite_withPending (d : VReg) (sh x : Vec) (s : State) (p : List Edge) :
    reportThenWrite d sh x { s with pending := p } = { reportThenWrite d sh x s with pending := p } := by
  simp only [reportThenWrite, State.report_withPending]
  split <;> rfl

theorem effect_withPending (i : Instr) (s : State) (p : List Edge) :
    effect i { s with pending := p } = { effect i s with pending := p } := by
  cases i
  case vffs => exact State.outcome_withPending s.zm.value s p
  case vchk a => exact State.report_withPending (s.reg a) s p
  case vclsh | vdec => exact reportThenWrite_withPending _ _ _ s p
  all_goals rfl

theorem doutOf_withPending (i : Instr) (s : State) (p : List Edge) :
    doutOf i { s with pending := p } = doutOf i s := by
  cases i <;> rfl

/-- A word does the same whatever edges are to come, and leaves them to come. -/
theorem runWord_withPending {w : Word} (h : runWord w s = .next t) (p : List Edge) :
    runWord w { s with pending := p } = .next { t with pending := p } := by
  cases hd : decode w with
  | ok i =>
    rw [runWord_ok hd, exec_eq] at h ⊢
    obtain rfl := Host.Outcome.next.inj h
    rw [effect_withPending, doutOf_withPending]
    rfl
  | error x =>
    rw [runWord_error hd, illegalCommand_eq] at h ⊢
    obtain rfl := Host.Outcome.next.inj h
    rfl

/-! ## Edges -/

theorem stepEdge_reset (hr : e.rst = true) : stepEdge e s = .next s.afterReset := by
  simp [stepEdge, State.edgeEvent, hr]

theorem stepEdge_quiet (h : s.edgeEvent e = .quiet) : stepEdge e s = .next s := by simp [stepEdge, h]

/-- Any number of quiet edges, and then one edge `e`, are together the step at `e`. -/
theorem run_quiet_then {quiet rest : List Edge} (hp : s.pending = quiet ++ e :: rest)
    (hq : ∀ q ∈ quiet, s.edgeEvent q = .quiet) (h : stepEdge e { s with pending := rest } = .next t) (k : Nat) :
    Host.Core.run core (quiet.length + 1 + k) s = Host.Core.run core k t := by
  induction quiet generalizing s with
  | nil =>
    rw [List.length_nil, Nat.zero_add, Nat.add_comm]
    exact run_succ_of_step ((step_of_cons hp).trans h) k
  | cons q qs ih =>
    have hgoesBy : step s = .next { s with pending := qs ++ e :: rest } :=
      (step_of_cons hp).trans (stepEdge_quiet (hq q List.mem_cons_self))
    calc Host.Core.run core ((q :: qs).length + 1 + k) s
      _ = Host.Core.run core (qs.length + 1 + k + 1) s := by rw [List.length_cons]; congr 1; omega
      _ = Host.Core.run core (qs.length + 1 + k) { s with pending := qs ++ e :: rest } := run_succ_of_step hgoesBy _
      _ = Host.Core.run core k t := ih rfl (fun q' hq' => hq q' (List.mem_cons_of_mem q hq')) h

/-- While VBRC waits, edges without a command go by until one is offered (R201). -/
theorem run_until_accepted {quiet rest : List Edge} (hs : s.rsp = none) (hf : s.inFlight = none)
    (hp : s.pending = quiet ++ e :: rest) (hq : ∀ q ∈ quiet, q.rst = false ∧ q.cmdValid = false)
    (hr : e.rst = false) (hv : e.cmdValid = true) (k : Nat) :
    Host.Core.run core (quiet.length + 1 + k) s =
      Host.Core.run core k (({ s with pending := rest } : State).accept (e.command s.n)) :=
  run_quiet_then hp (fun q hmem => by simp [State.edgeEvent, hs, hf, hq q hmem]) (stepEdge_accepted hr hs hf hv) k

/-- With a command in flight, edges without completion go by until the completing one, which runs its word (R202,
R407). -/
theorem run_until_completed {slow rest : List Edge} (hs : s.rsp = none) (hf : s.inFlight = some c)
    (hp : s.pending = slow ++ e :: rest) (hq : ∀ q ∈ slow, q.rst = false ∧ q.done = false)
    (hr : e.rst = false) (hd : e.done = true) (hw : runWord c.word { s with pending := rest } = .next t) (k : Nat) :
    Host.Core.run core (slow.length + 1 + k) s = Host.Core.run core k t :=
  run_quiet_then hp (fun q hmem => by simp [State.edgeEvent, hs, hf, hq q hmem])
    (Eq.trans (stepEdge_completed hr hs hf hd) hw) k

/-- While a response waits, edges without a take go by until the host takes it (R202). -/
theorem run_until_taken {held rest : List Edge} {r : Response} (hs : s.rsp = some r)
    (hp : s.pending = held ++ e :: rest) (hq : ∀ q ∈ held, q.rst = false ∧ q.rspReady = false)
    (hr : e.rst = false) (hy : e.rspReady = true) (k : Nat) :
    Host.Core.run core (held.length + 1 + k) s =
      Host.Core.run core k (({ s with pending := rest } : State).take r) :=
  run_quiet_then hp (fun q hmem => by simp [State.edgeEvent, hs, hq q hmem]) (stepEdge_taken hr hs hy) k

end Sys2Proof.Machine

namespace Sys2Proof.Safety

open Sys2Proof Sys2Proof.Machine

/-- Every word completes, legal or not. -/
theorem completed_of_runWord {s t : State} {w : Word} (h : runWord w s = .next t) :
    ∃ dout, Completed s t dout := by
  cases hd : decode w with
  | ok i => exact ⟨_, completed_of_exec ((runWord_ok hd s).symm.trans h)⟩
  | error x => exact ⟨_, completed_of_illegalCommand ((runWord_error hd s).symm.trans h)⟩

theorem transact_of_runWord {s t : State} {c : Command} {r : Response} (h : runWord c.word (s.accept c) = .next t)
    (hr : t.rsp = some r) : transact c s = .next (t.take r) := by
  simp [transact, h, hr]

end Sys2Proof.Safety
end

section
/-! The statements about reset and about hazards (70_reset_and_hazards.md). -/

namespace Sys2Proof.Proofs

open Sys2Proof Sys2Proof.Machine Sys2Proof.Safety

/-- Settles O53: the run is three phases, each of waiting edges and then an event: the offer is accepted
(`run_until_accepted`), the word of the command is run (`run_until_completed`), the response is taken
(`run_until_taken`). The word does the same with the held edges still to come as it does in the one transaction
(`runWord_withPending`). -/
theorem resultsHoldForEveryLatency : Obligations.ResultsHoldForEveryLatency := by
  intro s quiet slow held rest offer done taking ⟨hfree, hempty⟩ hquiet ⟨hofferRst, hvalid⟩ hslow ⟨hdoneRst, hdone⟩
    hheld ⟨htakingRst, htake⟩ hp
  obtain ⟨t, hrun⟩ := exists_runWord_eq_next offer.cmdWord
    (({ s with pending := rest } : State).accept (offer.command s.n))
  obtain ⟨dout, hcompleted⟩ := completed_of_runWord hrun
  have hrest : ({ t with pending := rest } : State) = t := by rw [← show t.pending = rest from hcompleted.pending]
  refine ⟨_, transact_of_runWord hrun hcompleted.rsp, ⟨hcompleted.inFlight, rfl⟩, ?_⟩
  -- `by exact` below: those facts are checked after the state before each phase is known.
  calc Host.Core.run core (quiet.length + slow.length + held.length + 3) s
    _ = Host.Core.run core (quiet.length + 1 + (slow.length + 1 + (held.length + 1 + 0))) s := by congr 1; omega
    _ = Host.Core.run core (slow.length + 1 + (held.length + 1 + 0))
          (({ s with pending := slow ++ done :: (held ++ taking :: rest) } : State).accept (offer.command s.n)) :=
      run_until_accepted hempty hfree (by simp [hp]) hquiet hofferRst hvalid _
    _ = Host.Core.run core (held.length + 1 + 0) { t with pending := held ++ taking :: rest } :=
      run_until_completed (by exact hempty) rfl rfl hslow hdoneRst hdone (by exact runWord_withPending hrun _) _
    _ = Host.Core.run core 0 (({ t with pending := rest } : State).take ⟨t.status.word, dout⟩) :=
      run_until_taken (by exact hcompleted.rsp) rfl hheld htakingRst htake 0
    _ = .next (t.take ⟨t.status.word, dout⟩) := by rw [hrest]; rfl

/-- Settles O13: the edge is a reset whatever the state (`stepEdge_reset`), and the state after it is `State.resetOf`
with the same lane count. -/
theorem resetEdgeEntersResetState : Obligations.ResetEdgeEntersResetState := by
  intro s e rest hp hr
  refine ⟨by simp [State.cmdReady, hr], by simp [State.rspValid, hr], _, (step_of_cons hp).trans (stepEdge_reset hr),
    rfl, rfl, Status.word_clear, State.regWritten_resetOf s.lanes, rfl, rfl, rfl, rfl⟩

end Sys2Proof.Proofs
end
